-- ==== Sys2Proof/Word.lean ====
section
/-! DEFINITION. The words of the BW412 and the one container the model uses for "one per line" and "one per source". -/

namespace Sys2Proof

/-- A byte of a link frame (R171). -/
abbrev Byte := BitVec 8

/-- A two-byte field of a link frame (R171). -/
abbrev Word16 := BitVec 16

/-- A position, timestamp or global cell number: 32 bits, taken modulo 2^32 (00_scope, Conventions). -/
abbrev Word32 := BitVec 32

/-- A sample: a 16-bit two's-complement linear audio value (00_scope, Terms). -/
abbrev Sample := BitVec 16

/-- Four things numbered 0..3: the lines of the part, or the media sources of a line. -/
structure Four (α : Type) where
  a0 : α
  a1 : α
  a2 : α
  a3 : α
deriving DecidableEq, Repr

/-- The thing with number `i`. -/
def Four.get {α : Type} (f : Four α) (i : Fin 4) : α :=
  match i with
  | 0 => f.a0
  | 1 => f.a1
  | 2 => f.a2
  | 3 => f.a3

/-- The same four with the thing numbered `i` replaced. -/
def Four.set {α : Type} (f : Four α) (i : Fin 4) (x : α) : Four α :=
  match i with
  | 0 => { f with a0 := x }
  | 1 => { f with a1 := x }
  | 2 => { f with a2 := x }
  | 3 => { f with a3 := x }

/-- Four copies of one thing. -/
def Four.all {α : Type} (x : α) : Four α := ⟨x, x, x, x⟩

/-- Each of the four through one function. -/
def Four.map {α β : Type} (g : α → β) (f : Four α) : Four β := ⟨g f.a0, g f.a1, g f.a2, g f.a3⟩

/-- The numbers 0..3 in ascending order, the order in which a write takes the lines of its mask (R26). -/
def four : List (Fin 4) := [0, 1, 2, 3]

end Sys2Proof
end

