-- ==== Sys2Proof/Syntax.lean ====
section
/-! DEFINITION. The commands of the BW412: one constructor of `Instr` for each row of spec/opcode_table.json.
Operands of a link request are the raw argument bytes of the table of R175, so that every refused value can be written.
Operands of an event of the part are the line whose event it is, and what the world outside presents. -/

namespace Sys2Proof

/-- The two links (R171). -/
inductive Link where
  | control
  | media
deriving DecidableEq, Repr

/-- From which side a fax answer tone was heard (R165). -/
inductive Direction where
  | localEnd
  | remoteEnd
deriving DecidableEq, Repr

/-- One segment of WRITE PROGRAM as it is sent: tone 0..31 or 0xFF SILENCE, and a duration (R175). -/
structure RawSegment where
  tone : Byte
  duration : Word16
deriving DecidableEq, Repr

/-- The sixteen bytes of values of SET PLAYOUT, in the order of R85 (R175). -/
structure RawPlayout where
  voiceDepth : Byte
  faxDepth : Byte
  starve : Byte
  patience : Byte
  lowWater : Word16
  highWater : Word16
  window : Word16
  quiet : Word16
  fillGain : Byte
  control : Byte
  lead : Byte
  capture : Byte
deriving DecidableEq, Repr

/-- The commands. -/
inductive Instr where
  /-- DEVICE_RESET (R1): a reset is taken; `low` says that the RESET pin is still low after it. `cFrame` and `mFrame` say that when RESET
  returns high the link's chip select is already low and that the master goes on in that frame (R183, log entry 6); where they are left
  out, no frame is under way. -/
  | deviceReset (low : Bool) (cFrame mFrame : Bool := false)
  /-- START_TIMEBASE (R2). -/
  | startTimebase
  /-- HIGHWAY_FRAME (R4): one frame; the front ends hold HRX at the 256 bits `hrx`, the first bit period's bit most significant, and their
  HOOK outputs at `hook` (high = true). -/
  | highwayFrame (hrx : BitVec 256) (hook : Four Bool)
  /-- GLOBAL_CELL_BOUNDARY (R3). -/
  | globalCellBoundary
  /-- START_BOUNDARY (R9) of a line. -/
  | startBoundary (l : Fin 4)
  /-- CONFIGURE_LINE (R17). -/
  | configureLine (line : Byte) (playBase playLen capBase : Word16) (capLen : Byte)
  /-- ENABLE_LINE (R7). -/
  | enableLine (line : Byte)
  /-- DISABLE_LINE (R12). -/
  | disableLine (line : Byte)
  /-- SET_MODE (R168). -/
  | setMode (line mode : Byte)
  /-- SET_SUPERVISION (R167). -/
  | setSupervision (line control attenuation : Byte)
  /-- WRITE_TONES (R106). -/
  | writeTones (start count : Byte) (fields : List Word16)
  /-- WRITE_PROGRAM (R109). -/
  | writeProgram (record control repeats count : Byte) (segments : List RawSegment)
  /-- START_SIGNAL (R113). -/
  | startSignal (line record level : Byte)
  /-- STOP_SIGNAL (R120). -/
  | stopSignal (line level : Byte)
  /-- LOAD_CID (R127). -/
  | loadCid (line type length : Byte) (payload : List Byte)
  /-- CID_ALERT (R137). -/
  | cidAlert (line entry : Byte)
  /-- RING_START (R152). -/
  | ringStart (line : Byte) (on off : Word16) (bursts cid : Byte) (delay : Word16)
  /-- RING_STOP (R156). -/
  | ringStop (line : Byte)
  /-- READ_EVENTS (R180). -/
  | readEvents (maximum : Byte)
  /-- OPEN_DEPOSIT (R48). -/
  | openDeposit (mask source : Byte) (time : Word32) (control gain : Byte)
  /-- DEPOSIT_DATA (R50). -/
  | depositData (count : Word16) (samples : List Sample)
  /-- COMMIT_DEPOSIT (R53, R54). The command takes the write events of the next `writes` lines of the mask; 4 takes them all, and stands
  where it is left out. A commit with lines left goes on with the next COMMIT_DEPOSIT, and other events may be taken in between (R26, R45,
  log entry 18). -/
  | commitDeposit (writes : Nat := 4)
  /-- ABANDON_DEPOSIT (R55). -/
  | abandonDeposit
  /-- FILL_CELLS (R66), `writes` as for COMMIT_DEPOSIT. A FILL_CELLS that goes on with a fill repeats its operands. -/
  | fillCells (mask source : Byte) (time : Word32) (control gain : Byte) (writes : Nat := 4)
  /-- LOAD_FILL_PATTERN (R69). -/
  | loadFillPattern (count : Word16) (samples : List Sample)
  /-- SET_PLAYOUT (R85). -/
  | setPlayout (line : Byte) (values : RawPlayout)
  /-- REALIGN (R87), control bit 0 the CLEAR flag. -/
  | realign (line slip control : Byte)
  /-- REALIGN_WITH_CLEAR (R88): the REALIGN whose CLEAR flag is set. -/
  | realignWithClear (line slip control : Byte)
  /-- CAPTURE_READ (R98). -/
  | captureRead (line maximum : Byte)
  /-- READ_AND_CLEAR_STATISTICS (R90). -/
  | readAndClearStatistics (line : Byte)
  /-- LINE_STATUS (R177), on either link. -/
  | lineStatus (link : Link) (line : Byte)
  /-- READ_LINK_STATUS (R174), on either link. -/
  | readLinkStatus (link : Link)
  /-- CLEAR_LINK_STATUS (R174), on either link. -/
  | clearLinkStatus (link : Link)
  /-- SET_IRQ_MODE (R182), on either link. -/
  | setIrqMode (link : Link) (mode : Byte)
  /-- UNKNOWN_CODE (R173): a code byte that names no request of the link. -/
  | unknownCode (link : Link) (code : Byte)
  /-- TRUNCATED_FRAME (R172): a frame of the request `code` that ended before its last argument byte. -/
  | truncatedFrame (link : Link) (code : Byte)
  /-- LOAD (R74): the load of a line. -/
  | load (l : Fin 4)
  /-- STARVE (R75): the load at which the line enters STARVED. -/
  | starve (l : Fin 4)
  /-- WINDOW_CLOSE (R82): the load that closes the margin window. -/
  | windowClose (l : Fin 4)
  /-- SIGNAL_DONE (R117): the load that renders the last cell of a program context. -/
  | signalDone (l : Fin 4)
  /-- ALERT_END (R138): the load that renders the 16th ALERT cell. -/
  | alertEnd (l : Fin 4)
  /-- CID_NO_ACK (R139): the load that renders the 32nd AWAIT-ACK cell. -/
  | cidNoAck (l : Fin 4)
  /-- SETTLE_END (R140): the load that renders the 10th SETTLE cell. -/
  | settleEnd (l : Fin 4)
  /-- CID_SENT (R132): the load that renders the last FSK cell. -/
  | cidSent (l : Fin 4)
  /-- CAPTURE_STORE (R95). -/
  | captureStore (l : Fin 4)
  /-- MIRQ_PULSE (R103): `periods` REFCLK periods of the MIRQ pulse output. -/
  | mirqPulse (periods : Nat)
  /-- TONE_DETECTOR_STEP (R159). -/
  | toneDetectorStep (l : Fin 4)
  /-- DIGIT (R160): the detector step that qualifies a digit. -/
  | digit (l : Fin 4)
  /-- DIGIT_END (R161): the detector step that releases the held digit. -/
  | digitEnd (l : Fin 4)
  /-- FAX_CALLING (R164): the detector step that completes a fax-calling run. -/
  | faxCalling (l : Fin 4)
  /-- FAX_ANSWER (R165): the detector step (LOCAL) or the load (REMOTE) that completes a fax-answer run. -/
  | faxAnswer (l : Fin 4) (direction : Direction)
  /-- HOOK_SAMPLE (R143). -/
  | hookSample (l : Fin 4)
  /-- OFF_HOOK (R144): the hook sample that qualifies OFF-HOOK. -/
  | offHook (l : Fin 4)
  /-- ON_HOOK (R147): the hook sample that qualifies ON-HOOK. -/
  | onHook (l : Fin 4)
  /-- PULSE_DIGIT (R146): the hook sample that completes a dialled digit. -/
  | pulseDigit (l : Fin 4)
  /-- BURST_END (R153): the ring step that ends an ON period. -/
  | burstEnd (l : Fin 4)
  /-- BURST_BEGIN (R154): the ring step that begins the next burst. -/
  | burstBegin (l : Fin 4)
  /-- CID_SEND (R134): the ring step at which the CID delay has run out. -/
  | cidSend (l : Fin 4)
  /-- CIRQ_PULSE (R181): `periods` REFCLK periods of the CIRQ pulse output. -/
  | cirqPulse (periods : Nat)
deriving DecidableEq, Repr

end Sys2Proof
end

