-- ==== Sys2Proof/Machine/Codes.lean ====
section
/-! DEFINITION. The request codes of the two links (R175), and where a counted request ends (R171). -/

namespace Sys2Proof.Machine

/-- The codes of a link's requests that have arguments (R175). -/
def argumentCodes : Link → List Byte
  | .control => [0x02, 0x03, 0x04, 0x05, 0x06, 0x08, 0x09, 0x0A, 0x0B, 0x0C, 0x0D, 0x0E, 0x0F, 0x10, 0x70, 0x7E]
  | .media => [0x40, 0x41, 0x44, 0x45, 0x46, 0x47, 0x48, 0x49, 0x70, 0x7E]

/-- The codes of a link's requests that have none (R175). -/
def bareCodes : Link → List Byte
  | .control => [0x01, 0x7C, 0x7D]
  | .media => [0x42, 0x43, 0x7C, 0x7D]

/-- The code names a request of the link (R173). -/
def knownCode (k : Link) (code : Byte) : Bool := (argumentCodes k).contains code || (bareCodes k).contains code

/-- The code of DEPOSIT DATA. -/
def depositDataCode : Byte := 0x41

/-- A start argument of WRITE TONES: 0..31, or 0xFF CONTINUE (R106, R175). -/
def toneStartOk (start : Byte) : Bool := decide (start.toNat < 32) || start == 0xFF

/-- A field count that WRITE TONES takes: 0..96 (R106). -/
def toneCountOk (count : Byte) : Bool := decide (count.toNat ≤ 96)

/-- A segment count that WRITE PROGRAM takes: 0..8 (R109). -/
def segmentCountOk (count : Byte) : Bool := decide (count.toNat ≤ 8)

/-- A payload length that LOAD CID takes: 0..60 (R127). -/
def cidLengthOk (length : Byte) : Bool := decide (length.toNat ≤ 60)

/-- A sample count that DEPOSIT DATA takes: 1..320 (R50). -/
def dataCountOk (count : Word16) : Bool := decide (1 ≤ count.toNat) && decide (count.toNat ≤ 320)

/-- The sample count that LOAD FILL PATTERN takes: 40 (R69). -/
def patternCountOk (count : Word16) : Bool := decide (count.toNat = 40)

end Sys2Proof.Machine
end

