-- ==== Sys2Proof/Machine/State.lean ====
section
/-! DEFINITION. The state of the BW412: every piece of state the manual names, as plain data, and the state after a device reset.
The list of pieces, with the rule that names each and its reset value, stands in INVENTORY.md under "State". -/

namespace Sys2Proof.Machine

/-! ### Names of modes, states, causes -/

/-- Timebase state (R1). -/
inductive Timebase where
  | held
  | running
deriving DecidableEq, Repr

/-- Line mode (table of 1.3). -/
inductive LineMode where
  | voice
  | fax
deriving DecidableEq, Repr

/-- Cause of a pending mode (R74, R166, R168). -/
inductive ModeCause where
  | request
  | auto
deriving DecidableEq, Repr

/-- A pending mode with its cause. -/
structure PendingMode where
  mode : LineMode
  cause : ModeCause
deriving DecidableEq, Repr

/-- Playout state of an enabled line (R71). -/
inductive PlayoutState where
  | idle
  | running
  | starved
deriving DecidableEq, Repr

/-- One of the two serializer halves (R10, R11). -/
inductive HalfId where
  | first
  | second
deriving DecidableEq, Repr

/-- The other half. -/
def HalfId.other : HalfId → HalfId
  | .first => .second
  | .second => .first

/-- How rendered cells or written cells meet what is there: generator output modes (R108). -/
inductive OutputMode where
  | overlay
  | exclusive
deriving DecidableEq, Repr

/-- Mix of a deposit or a fill (R60). -/
inductive Mix where
  | replace
  | add
deriving DecidableEq, Repr

/-- Kind of a write (R21). -/
inductive WriteKind where
  | media
  | fill
deriving DecidableEq, Repr

/-- Context level (R112). -/
inductive Level where
  | background
  | foreground
deriving DecidableEq, Repr

/-- Context state (R112). -/
inductive CtxState where
  | active
  | suspended
deriving DecidableEq, Repr

/-- Phase of the off-hook CID (8.4). -/
inductive AlertPhase where
  | alert
  | awaitAck
  | settle
  | send
deriving DecidableEq, Repr

/-- Interrupt output mode (R102, R103, R181). -/
inductive IrqMode where
  | level
  | pulse
deriving DecidableEq, Repr

/-- Slot state (2.3). -/
inductive SlotState where
  | empty
  | filled
deriving DecidableEq, Repr

/-- A DTMF digit by its digit code: 0..9 for 0..9, 10 for *, 11 for #, 12..15 for A..D (R176). -/
abbrev Digit := Fin 16

/-- Class of a cell (R158). -/
inductive CellClass where
  | none
  | other
  | dtmf (d : Digit)
  | faxCalling
  | faxAnswer
deriving DecidableEq, Repr

/-! ### Events (R178) -/

/-- Cause of RING DONE (R153, R156). -/
inductive RingCause where
  | count
  | stop
deriving DecidableEq, Repr

/-- Cause of CID ABORTED (R136, R141). -/
inductive AbortCause where
  | offHook
  | onHook
  | stop
  | fax
deriving DecidableEq, Repr

/-- Cause of SIGNAL CANCELLED (table after R124). -/
inductive CancelCause where
  | replaced
  | stop
  | digit
  | onHook
  | fax
deriving DecidableEq, Repr

/-- Kind and detail of an event record (R178). -/
inductive Event where
  | offHook (trip : Bool)
  | onHook
  | flash
  | pulseDigit (digit : Nat)
  | dialError (count : Nat)
  | digit (d : Digit)
  | digitEnd (d : Digit) (duration : Nat)
  | faxCalling
  | faxAnswer (direction : Direction)
  | modeChanged (mode : LineMode) (cause : ModeCause)
  | ringDone (cause : RingCause)
  | cidSent
  | cidNoAck
  | cidAborted (cause : AbortCause)
  | signalDone (level : Level)
  | signalCancelled (level : Level) (cause : CancelCause)
  | overflow (discarded : Nat)
deriving DecidableEq, Repr

/-- An event record: the line is absent for OVERFLOW (R178). -/
structure EventRecord where
  event : Event
  line : Option (Fin 4)
  stamp : Word32
deriving DecidableEq, Repr

/-! ### The Sample Store (chapter 2) -/

/-- Kinds of a slot: a set drawn from MEDIA, FILL (2.3). -/
structure Kinds where
  media : Bool
  fill : Bool
deriving DecidableEq, Repr

/-- Metadata of a playout slot (R20): state, source set, kinds. -/
structure SlotRecord where
  state : SlotState
  sources : Four Bool
  kinds : Kinds
deriving DecidableEq, Repr

/-- Metadata of a capture cell record (R92, R94). -/
structure CaptureInfo where
  stamp : Word32
  reference : Word32
  cls : CellClass
  offhook : Bool
  signalling : Bool
  fax : Bool
deriving DecidableEq, Repr

/-- Metadata of a store cell: its meaning depends on the kind of ring (R15). -/
inductive CellInfo where
  | slot (r : SlotRecord)
  | capture (c : CaptureInfo)
deriving DecidableEq, Repr

/-- A store cell: 40 samples and metadata (R15). -/
structure StoreCell where
  samples : List Sample
  info : CellInfo
deriving DecidableEq, Repr

/-- The Sample Store: pairs (cell number, content), cell numbers strictly rising and below 1024, no content equal to what an
unlisted cell reads as (R15; the canonical form is `Store.wf`). -/
abbrev Store := List (Nat × StoreCell)

/-- One present entry of the Partition Table (2.2). -/
structure RingEntry where
  base : Nat
  len : Nat
deriving DecidableEq, Repr

/-! ### Playout (chapters 3 and 5) -/

/-- One record of the anchor table (3.1). -/
inductive Anchor where
  | unanchored
  | anchored (offset : Word32)
  | stale
deriving DecidableEq, Repr

/-- Playout configuration of a line (R85); the capture threshold stands with the Capture Unit. -/
structure PlayoutConfig where
  voiceDepth : Nat
  faxDepth : Nat
  starve : Nat
  patience : Nat
  lowWater : Nat
  highWater : Nat
  window : Nat
  quiet : Nat
  fillGain : Int
  autoSlip : Bool
  lead : Fin 4
deriving DecidableEq, Repr

/-- The eight statistics counters, in the order of R89. -/
structure Stats where
  late : Nat
  early : Nat
  duplicate : Nat
  concealed : Nat
  suppressed : Nat
  slipsPlus : Nat
  slipsMinus : Nat
  overruns : Nat
deriving DecidableEq, Repr

/-- The margin window (R82, R83). -/
structure Window where
  counter : Nat
  minimum : Option Int
  lastMinimum : Option Int
deriving DecidableEq, Repr

/-- One playout half: a loaded cell, its base position and its slip (R84). -/
structure PlayHalf where
  samples : List Sample
  base : Word32
  slip : Int
deriving DecidableEq, Repr

/-- One capture half: the samples received so far, the reference noted when it began filling, and, once it is closed and handed
to the Tone Detector, the class of its 40 samples (R11, R93, R159). -/
structure CaptureHalf where
  samples : List Sample
  reference : Word32
  cls : CellClass
deriving DecidableEq, Repr

/-! ### Signals (chapters 7 and 8) -/

/-- A tone table entry (R105). -/
structure ToneEntry where
  freqA : Nat
  freqB : Nat
  attenuation : Nat
deriving DecidableEq, Repr

/-- A segment of a program: a tone entry index or SILENCE (none), and a duration in cells (R108). -/
structure Segment where
  tone : Option Nat
  duration : Nat
deriving DecidableEq, Repr

/-- A program record (R108). Repeat count 0 means for ever. -/
structure ProgramRecord where
  output : OutputMode
  repeats : Nat
  cutOnDigit : Bool
  segments : List Segment
deriving DecidableEq, Repr

/-- Increments, amplitude and phases copied and computed when a tone segment begins (R110). -/
structure Tone where
  incA : Word16
  incB : Word16
  amplitude : Nat
  phaseA : Word16
  phaseB : Word16
deriving DecidableEq, Repr

/-- Progress of a program context (7.4). `repeats = none` is FOREVER. -/
structure ProgramRun where
  segment : Nat
  cellsLeft : Nat
  repeats : Option Nat
  tone : Tone
deriving DecidableEq, Repr

/-- Progress of an FSK transmission (R129, R130): phase, bit accumulator, bit number, amplitude. -/
structure Fsk where
  phase : Word16
  accumulator : Nat
  bit : Nat
  amplitude : Nat
deriving DecidableEq, Repr

/-- Progress of an off-hook CID (8.4): alert tone entry, phase, cells rendered in the phase, alert tone once copied, FSK once begun. -/
structure AlertRun where
  entry : Nat
  phase : AlertPhase
  cells : Nat
  tone : Option Tone
  fsk : Option Fsk
deriving DecidableEq, Repr

/-- What a context plays (7.4). The FSK of an ON-HOOK CID is absent until its first rendered cell (R129). -/
inductive CtxKind where
  | program (record : Nat) (run : ProgramRun)
  | onHookCid (fsk : Option Fsk)
  | offHookCid (run : AlertRun)
deriving DecidableEq, Repr

/-- A generator context (7.4); its level is the place of the line that holds it. -/
structure Context where
  state : CtxState
  output : OutputMode
  kind : CtxKind
deriving DecidableEq, Repr

/-- A message of a CID buffer; its length is that of the payload (8.1). -/
structure CidMessage where
  type : Byte
  payload : List Byte
  checksum : Byte
deriving DecidableEq, Repr

/-- A CID buffer: EMPTY (no message) or LOADED, and its use (8.1). -/
structure CidBuffer where
  message : Option CidMessage
  inUse : Bool
deriving DecidableEq, Repr

/-! ### Supervision (chapters 9 and 10) -/

/-- Ring state with the fields present in it: bursts begun, period remaining, CID delay remaining (9.2). -/
inductive RingState where
  | idle
  | on (begun remaining : Nat)
  | off (begun remaining : Nat)
  | cidDelay (begun remaining delay : Nat)
  | cidSend (begun remaining : Nat)
deriving DecidableEq, Repr

/-- The Ring Controller's record (9.2). `cid = some D`: CID attached with delay D. -/
structure RingRecord where
  state : RingState
  onPeriod : Nat
  offPeriod : Nat
  bursts : Nat
  cid : Option Nat
deriving DecidableEq, Repr

/-- Return state of a break, with the make count held when it is DIALING (9.1). -/
inductive HookReturn where
  | offhook
  | dialing (make : Nat)
deriving DecidableEq, Repr

/-- Classifier state with the counts present in it (9.1). -/
inductive HookState where
  | onhook (off : Nat)
  | offhook
  | dialing (make : Nat)
  | brk (count : Nat) (ret : HookReturn)
deriving DecidableEq, Repr

/-- The Hook Monitor's classifier record (9.1). -/
structure Classifier where
  state : HookState
  pulses : Nat
deriving DecidableEq, Repr

/-- Phase of the digit machine with the fields present in HELD (10.2). -/
inductive DigitPhase where
  | seeking
  | held (digit : Digit) (duration release : Nat) (taken : Bool)
deriving DecidableEq, Repr

/-- The digit machine (10.2). -/
structure DigitMachine where
  phase : DigitPhase
  runDigit : Option Digit
  runLength : Nat
deriving DecidableEq, Repr

/-- The Tone Detector's machines of a line (10.2, 10.3). -/
structure Detector where
  digits : DigitMachine
  faxCalling : Nat
  captureAnswer : Nat
  playoutAnswer : Nat
deriving DecidableEq, Repr

/-- The model's own flags: which works the boundaries already taken have left to be taken (log entry 2). -/
structure Due where
  start : Bool
  load : Bool
  capture : Bool
  detector : Bool
  hook : Bool
  ring : Bool
deriving DecidableEq, Repr

/-! ### A line -/

/-- Everything the part keeps for one line. -/
structure Line where
  /-- Line Controller (table of 1.3). -/
  enabled : Bool
  mode : LineMode
  pendingMode : Option PendingMode
  autoFax : Bool
  /-- Partition Table (2.2). -/
  playRing : Option RingEntry
  capRing : Option RingEntry
  /-- Playout Engine (5.1): whether the start boundary has passed (R9), horizon, horizon slot index, anchors, and the record of 5.1. -/
  started : Bool
  horizon : Word32
  hs : Nat
  anchors : Four Anchor
  playout : PlayoutState
  run : Nat
  repeatBuffer : Option (List Sample)
  pendingSlip : Int
  patience : Nat
  window : Window
  stats : Stats
  config : PlayoutConfig
  /-- Line Serializers (R10, R11, R84): playing half, samples already sent of it, the filling capture half. -/
  playFirst : PlayHalf
  playSecond : PlayHalf
  playing : HalfId
  sent : Nat
  capFirst : CaptureHalf
  capSecond : CaptureHalf
  filling : HalfId
  /-- Capture Unit (6.2). -/
  capWrite : Nat
  capRead : Nat
  unread : Nat
  capThreshold : Nat
  /-- Signal Generator (7.4, R94): contexts, the signalling mark of the cell in progress and the one handed over at the last boundary. -/
  background : Option Context
  foreground : Option Context
  mark : Bool
  closedMark : Bool
  /-- Caller-ID Unit (8.1, R129). -/
  cid : CidBuffer
  cidAttenuation : Nat
  /-- Ring Controller (9.2). -/
  ring : RingRecord
  /-- Hook Monitor (9.1) and the level of the HOOK pin. -/
  hook : Classifier
  hookPin : Bool
  /-- Tone Detector (10.2, 10.3). -/
  detector : Detector
  /-- Works left to be taken (log entry 2). -/
  due : Due
deriving DecidableEq, Repr

/-! ### Part-wide records -/

/-- An open deposit (4.1). -/
structure Deposit where
  mask : Four Bool
  source : Fin 4
  time : Word32
  cells : Nat
  mix : Mix
  invert : Bool
  gain : Int
  mark : Bool
  samples : List Sample
  broken : Bool
deriving DecidableEq, Repr

/-- A write as it reaches each line of its mask: its cells with their numbers i, already inverted and scaled (R58, R59). -/
structure Write where
  kind : WriteKind
  source : Fin 4
  time : Word32
  mix : Mix
  mark : Bool
  cells : List (Nat × List Sample)
deriving DecidableEq, Repr

/-- A commit or a fill that has been taken and whose lines are not all written yet: the lines still to be written, in ascending order, and
the response fields of those written (R26, R45, R54). -/
structure WriteJob where
  write : Write
  left : List (Fin 4)
  report : List Byte
deriving DecidableEq, Repr

/-- An interrupt output (R103, R181): mode, owed pulses, REFCLK periods left of the low part of a pulse in progress and of the
high part that must follow it. -/
structure IrqOut where
  mode : IrqMode
  owed : Nat
  low : Nat
  gap : Nat
deriving DecidableEq, Repr

/-- One link: sticky FRAME and UNKNOWN (R174), its interrupt output, the response bytes last sent on it (log entry 7), and whether a frame
under way since RESET returned high is being ignored (R183). -/
structure LinkState where
  frame : Bool
  unknown : Bool
  irq : IrqOut
  response : List Byte
  ignoring : Bool
deriving DecidableEq, Repr

/-- The state of the part. -/
structure State where
  /-- Level of the RESET pin is low (R1). -/
  resetLow : Bool
  /-- Timebase (R1, R3): state, G, and frames of the global cell in progress already taken. -/
  timebase : Timebase
  g : Word32
  frame : Nat
  /-- Samples sent on HTX in the last frame, lines 0..3 (R4, R5). -/
  htx : Four Sample
  lines : Four Line
  /-- Sample Store (R15). -/
  store : Store
  /-- Fill pattern (R69). -/
  fillPattern : List Sample
  /-- Deposit buffer (4.1): none when closed. -/
  deposit : Option Deposit
  /-- The commit or fill whose lines are being written (R26, R45): none when none is. -/
  job : Option WriteJob
  /-- Tone table, write cursor, staging record (R105); program table (R108). -/
  tones : List ToneEntry
  toneCursor : Nat
  toneStaging : List Word16
  programs : List ProgramRecord
  /-- Event Queue, oldest first (R178). -/
  events : List EventRecord
  /-- The links (R174); SEQUENCE belongs to the M-link alone (R57). -/
  cLink : LinkState
  mLink : LinkState
  sequence : Bool
  /-- The model's queue of waiting commands, first in first out. -/
  pending : List Instr
deriving DecidableEq, Repr

/-- Why the machine could stop with a fault. The manual gives the part no fault of the machine and no meaning raises one: SAFE, the
type has no constructor. -/
inductive Fault where
deriving DecidableEq, Repr

/-- Why a command could be refused by the model. -/
inductive Refusal where
  /-- Raised by an arm of `exec` whose command has no meaning yet; no arm does. SAFE: the machine stops. -/
  | notModelled (mnemonic : String)
deriving DecidableEq, Repr

/-! ### Reset (R1) -/

/-- 40 samples of 0 (R15, R69). -/
def silence : List Sample := List.replicate 40 0

/-- The metadata of an EMPTY slot: no sources, no kinds (R15, R20). -/
def SlotRecord.empty : SlotRecord := ⟨.empty, Four.all false, ⟨false, false⟩⟩

/-- What a store cell holds after a device reset (R15), and what an unlisted cell reads as. -/
def StoreCell.reset : StoreCell := ⟨silence, .slot .empty⟩

/-- Defaults of the playout configuration (R85). -/
def PlayoutConfig.reset : PlayoutConfig :=
  { voiceDepth := 8, faxDepth := 24, starve := 40, patience := 20, lowWater := 40, highWater := 160, window := 200,
    quiet := 256, fillGain := -2, autoSlip := true, lead := 0 }

/-- All eight counters 0 (R89). -/
def Stats.zero : Stats := ⟨0, 0, 0, 0, 0, 0, 0, 0⟩

/-- The margin window with nothing gathered (R8, R13). -/
def Window.reset : Window := ⟨0, none, none⟩

/-- A playout half with nothing loaded (log entry 26). -/
def PlayHalf.reset : PlayHalf := ⟨silence, 0, 0⟩

/-- A capture half with nothing received (log entry 26). -/
def CaptureHalf.reset : CaptureHalf := ⟨[], 0, .none⟩

/-- The classifier in ONHOOK with every count 0 (9.1). -/
def Classifier.reset : Classifier := ⟨.onhook 0, 0⟩

/-- The digit machine in SEEKING with no run (10.2). -/
def DigitMachine.reset : DigitMachine := ⟨.seeking, none, 0⟩

/-- The detector machines in their reset state (10.2, 10.3). -/
def Detector.reset : Detector := ⟨.reset, 0, 0, 0⟩

/-- Nothing left to be taken (log entry 2). -/
def Due.none : Due := ⟨false, false, false, false, false, false⟩

/-- The ring record after a device reset (9.2). -/
def RingRecord.reset : RingRecord := ⟨.idle, 20, 20, 0, none⟩

/-- A line after a device reset. -/
def Line.reset : Line :=
  { enabled := false, mode := .voice, pendingMode := none, autoFax := false, playRing := none, capRing := none,
    started := false, horizon := 0, hs := 0, anchors := Four.all .unanchored, playout := .idle, run := 0,
    repeatBuffer := none, pendingSlip := 0, patience := 0, window := .reset, stats := .zero, config := .reset,
    playFirst := .reset, playSecond := .reset, playing := .first, sent := 0, capFirst := .reset, capSecond := .reset,
    filling := .first, capWrite := 0, capRead := 0, unread := 0, capThreshold := 2, background := none, foreground := none,
    mark := false, closedMark := false, cid := ⟨none, false⟩, cidAttenuation := 10, ring := .reset, hook := .reset,
    hookPin := false, detector := .reset, due := .none }

/-- An interrupt output after a device reset (R104, R183). -/
def IrqOut.reset : IrqOut := ⟨.level, 0, 0, 0⟩

/-- A link after a device reset (R183). -/
def LinkState.reset : LinkState := ⟨false, false, .reset, [], false⟩

/-- The state right after a device reset, when RESET has returned high (R1). -/
def State.reset : State :=
  { resetLow := false, timebase := .held, g := 0, frame := 0, htx := Four.all 0, lines := Four.all .reset, store := [],
    fillPattern := silence, deposit := none, job := none, tones := List.replicate 32 ⟨0, 0, 0⟩, toneCursor := 0, toneStaging := [],
    programs := List.replicate 16 ⟨.overlay, 0, false, []⟩, events := [], cLink := .reset, mLink := .reset,
    sequence := false, pending := [] }

end Sys2Proof.Machine
end

