-- ==== Sys2Proof/Machine/Flags.lean ====
section
/-! DEFINITION. Saturation and clamping, result bytes, the conditions that status flags and outputs follow. -/

namespace Sys2Proof.Machine

/-! ### Saturating and clamping (00_scope, Conventions) -/

/-- A sample sum saturated to −32768..32767. -/
def saturate (x : Int) : Sample :=
  BitVec.ofInt 16 (if x < -32768 then -32768 else if 32767 < x then 32767 else x)

/-- A counter that counts one more and stays at its greatest value `top`. -/
def countUp (top n : Nat) : Nat := if n < top then n + 1 else top

/-- `k` counts of a saturating counter (R43, R62, R89). -/
def countBy (top k n : Nat) : Nat := if n + k ≤ top then n + k else top

/-- A request value replaced by the nearest end of its range. -/
def clampNat (lo hi n : Nat) : Nat := if n < lo then lo else if hi < n then hi else n

/-- A signed value replaced by the nearest end of its range. -/
def clampInt (lo hi x : Int) : Int := if x < lo then lo else if hi < x then hi else x

/-- A pending slip kept within −40..+40 (R82, R87). -/
def clampSlip (x : Int) : Int := clampInt (-40) 40 x

/-! ### Results (R173) -/

/-- The results of requests. -/
inductive Result where
  | ok
  | busy
  | range
  | state
  | sequence
  | short
  | inUse
  | onHook
  | offHook
  | faxMode
  | none
  | unknown
deriving DecidableEq, Repr

/-- The byte of a result (R173). -/
def Result.byte : Result → Byte
  | .ok => 0x00
  | .busy => 0x01
  | .range => 0x02
  | .state => 0x03
  | .sequence => 0x04
  | .short => 0x05
  | .inUse => 0x06
  | .onHook => 0x07
  | .offHook => 0x08
  | .faxMode => 0x09
  | .none => 0x0A
  | .unknown => 0x0B

/-! ### Peak and quiet test (R77) -/

/-- Magnitude of a sample, that of −32768 being 32768. -/
def magnitude (x : Sample) : Nat := x.toInt.natAbs

/-- The largest magnitude of a cell. -/
def peak (cell : List Sample) : Nat := cell.foldl (fun m x => max m (magnitude x)) 0

/-- A cell is quiet when its peak is at or below the quiet threshold. -/
def quiet (threshold : Nat) (cell : List Sample) : Bool := peak cell ≤ threshold

/-! ### Hook, ring and context conditions -/

/-- The qualified hook state is OFF-HOOK in every classifier state but ONHOOK (9.1). -/
def HookState.qualified : HookState → Bool
  | .onhook _ => false
  | _ => true

/-- The line's qualified hook state is OFF-HOOK (9.1). -/
def Line.offHook (L : Line) : Bool := L.hook.state.qualified

/-- The ring state is ON. -/
def RingState.ringing : RingState → Bool
  | .on _ _ => true
  | _ => false

/-- RINGEN of the line is high (R151): exactly in ring state ON. -/
def Line.ringen (L : Line) : Bool := L.ring.state.ringing

/-- The Ring Controller holds an on-hook CID scheduled or sending (8.3): the first burst with the CID attached, CID-DELAY, CID-SEND. -/
def RingRecord.holdsCid (r : RingRecord) : Bool :=
  match r.state with
  | .on begun _ => begun == 1 && r.cid.isSome
  | .cidDelay _ _ _ => true
  | .cidSend _ _ => true
  | _ => false

/-- The context renders EXCLUSIVE output now. -/
def Context.mutes (c : Context) : Bool := c.state == .active && c.output == .exclusive

/-- The context is an off-hook CID, in any of its phases. -/
def Context.isAlert (c : Context) : Bool :=
  match c.kind with
  | .offHookCid _ => true
  | _ => false

/-- The foreground sets the signalling mark (R94): it is EXCLUSIVE, or an off-hook CID in any phase. -/
def Line.foregroundMarks (L : Line) : Bool :=
  match L.foreground with
  | some c => c.mutes || c.isAlert
  | none => false

/-- The background sets the signalling mark (R94): it is ACTIVE and EXCLUSIVE. -/
def Line.backgroundMarks (L : Line) : Bool :=
  match L.background with
  | some c => c.mutes
  | none => false

/-- What sets the signalling mark (R94): an ACTIVE context whose output mode is EXCLUSIVE, or an off-hook CID in any phase. -/
def Line.signalling (L : Line) : Bool := L.foregroundMarks || L.backgroundMarks

/-! ### Interrupt outputs (R102, R103, R181) -/

/-- The condition of MIRQ in LEVEL mode for one line (R102). -/
def Line.captureReady (L : Line) : Bool := L.enabled && decide (L.capThreshold ≤ L.unread)

/-- MIRQ is asserted (R102, R103). DESIGN CHOICE, log entry 31: in LEVEL mode it follows R102, so that DISABLE LINE, a request of the
Control Link, can deassert it, where R181 says that a request on one link never changes the other link's output. -/
def State.mirq (s : State) : Bool :=
  match s.mLink.irq.mode with
  | .level => four.any fun l => (s.lines.get l).captureReady
  | .pulse => s.mLink.irq.low != 0

/-- CIRQ is asserted (R181). -/
def State.cirq (s : State) : Bool :=
  match s.cLink.irq.mode with
  | .level => !s.events.isEmpty
  | .pulse => s.cLink.irq.low != 0

/-- One more pulse is owed, in PULSE mode only; the count stays at its greatest value `top` (R103, R181). -/
def IrqOut.owe (top : Nat) (i : IrqOut) : IrqOut :=
  match i.mode with
  | .pulse => { i with owed := countUp top i.owed }
  | .level => i

/-- One REFCLK edge at an interrupt output (R103, R181). A pulse in progress counts down its four low periods; when they are over the owed
count decreases and four high periods follow; then the next owed pulse begins. -/
def IrqOut.tick (i : IrqOut) : IrqOut :=
  if i.low = 1 then { i with owed := i.owed - 1, low := 0, gap := 3 }
  else if i.low ≠ 0 then { i with low := i.low - 1 }
  else if i.gap ≠ 0 then { i with gap := i.gap - 1 }
  else if i.owed ≠ 0 then { i with low := 4 }
  else i

/-- `n` REFCLK edges at an interrupt output. -/
def IrqOut.ticks : Nat → IrqOut → IrqOut
  | 0, i => i
  | n + 1, i => IrqOut.ticks n i.tick

/-- The mode of an interrupt output set (R104, R182): a change clears the owed count and ends any pulse in progress. -/
def IrqOut.setMode (m : IrqMode) (i : IrqOut) : IrqOut :=
  if i.mode = m then i else ⟨m, 0, 0, 0⟩

/-! ### Highway outputs (R1, R4) -/

/-- HFS in bit period `t` (0..255) of a frame: high for the first bit period of timeslot 0; held low while HELD. -/
def State.hfs (s : State) (t : Nat) : Bool := s.timebase == .running && t == 0

/-- HCLK runs while the Timebase is RUNNING and is held low while HELD. -/
def State.hclkRuns (s : State) : Bool := s.timebase == .running

/-- HTX in bit period `t` (0..255) of the last frame: timeslots 0..3 carry the samples of lines 0..3, most significant bit first;
high impedance (none) in timeslots 4..15, and while HELD. -/
def State.htxBit (s : State) (t : Nat) : Option Bool :=
  if s.timebase = .running then
    if h : t / 16 < 4 then some ((s.htx.get ⟨t / 16, h⟩).getMsbD (t % 16)) else none
  else none

end Sys2Proof.Machine
end

