-- ==== Sys2Proof/Machine/Operands.lean ====
section
/-! DEFINITION. Reading the raw argument bytes of requests (R175): choices, masks, control bits, signed and clamped fields; and the
big-endian bytes of response fields (R171). -/

namespace Sys2Proof.Machine

/-- A number 0..3: a line, or a media source; none when the byte is above 3. -/
def index4 (b : Byte) : Option (Fin 4) :=
  if h : b.toNat < 4 then some ⟨b.toNat, h⟩ else none

/-- A line mask or source set as four bits, bit i for number i. -/
def maskOf (b : Byte) : Four Bool := ⟨b.getLsbD 0, b.getLsbD 1, b.getLsbD 2, b.getLsbD 3⟩

/-- The line mask check: 1..15 (R48, R66). -/
def maskOk (b : Byte) : Bool := decide (1 ≤ b.toNat) && decide (b.toNat ≤ 15)

/-- A mask as the byte that names it. -/
def maskByte (m : Four Bool) : Byte :=
  (if m.a0 then 1 else 0) + (if m.a1 then 2 else 0) + (if m.a2 then 4 else 0) + (if m.a3 then 8 else 0)

/-- The numbers of a mask in ascending order (R26). -/
def maskLines (m : Four Bool) : List (Fin 4) := four.filter fun l => m.get l

/-- A gain step: bits 3..0 as a 4-bit two's-complement value, +4..+7 clamped to +3 (R48, R85). DESIGN CHOICE, log entry 29: bits 7..4 of a gain
byte are ignored; R175 says so of unnamed bits of a control byte only, and of those of a gain byte it says nothing. -/
def gainOf (b : Byte) : Int := clampInt (-8) 3 (b.extractLsb' 0 4).toInt

/-- The byte of a stored gain step: its two's complement in bits 3..0 (R175). -/
def gainByte (g : Int) : Byte := ((BitVec.ofInt 4 g).zeroExtend 8)

/-- A level byte: 0 BACKGROUND, 1 FOREGROUND (R175). -/
def levelOf (b : Byte) : Option Level :=
  if b = 0 then some .background else if b = 1 then some .foreground else none

/-- A mode byte of SET MODE: 0 VOICE, 1 FAX (R175). -/
def modeOf (b : Byte) : Option LineMode :=
  if b = 0 then some .voice else if b = 1 then some .fax else none

/-- A mode byte of SET IRQ MODE: 0 LEVEL, 1 PULSE (R182). -/
def irqModeOf (b : Byte) : Option IrqMode :=
  if b = 0 then some .level else if b = 1 then some .pulse else none

/-- A segment's tone: 0..31, or 0xFF SILENCE (R175); none when it is neither. -/
def toneOf (b : Byte) : Option (Option Nat) :=
  if b.toNat < 32 then some (some b.toNat) else if b = 0xFF then some none else none

/-- The slip request: a signed byte clamped to −40..+40 (R87). -/
def slipOf (b : Byte) : Int := clampSlip b.toInt

/-- A small number as a byte. -/
def byte (n : Nat) : Byte := BitVec.ofNat 8 n

/-- A two-byte field, big-endian (R171). -/
def bytes2 (w : Word16) : List Byte := [w.extractLsb' 8 8, w.extractLsb' 0 8]

/-- A four-byte field, big-endian (R171). -/
def bytes4 (w : Word32) : List Byte :=
  [w.extractLsb' 24 8, w.extractLsb' 16 8, w.extractLsb' 8 8, w.extractLsb' 0 8]

/-- A counter as a two-byte field. -/
def nat2 (n : Nat) : List Byte := bytes2 (BitVec.ofNat 16 n)

/-- A signed value as a two-byte field. -/
def int2 (x : Int) : List Byte := bytes2 (BitVec.ofInt 16 x)

/-- A signed value as a byte. -/
def int1 (x : Int) : Byte := BitVec.ofInt 8 x

/-- A choice of two as a byte. -/
def flag (b : Bool) : Byte := if b then 1 else 0

/-- Mode as a byte: 0 VOICE, 1 FAX. -/
def LineMode.byte : LineMode → Byte
  | .voice => 0
  | .fax => 1

/-- Pending mode as a byte: 0 absent, 1 VOICE, 2 FAX (R175, R177). -/
def pendingByte : Option PendingMode → Byte
  | none => 0
  | some p => p.mode.byte + 1

/-- Level as a byte: 0 BACKGROUND, 1 FOREGROUND. -/
def Level.byte : Level → Byte
  | .background => 0
  | .foreground => 1

/-- Interrupt mode as a byte: 0 LEVEL, 1 PULSE. -/
def IrqMode.byte : IrqMode → Byte
  | .level => 0
  | .pulse => 1

/-- Digit code as a byte (R176). -/
def digitByte (d : Digit) : Byte := BitVec.ofNat 8 d.val

end Sys2Proof.Machine
end

