-- ==== Sys2Proof/Machine/Ops.lean ====
section
/-! DEFINITION. The named operations over the state: the Sample Store, slots, the lines, the Event Queue, link responses. -/

namespace Sys2Proof.Machine

/-! ### The Sample Store (R15) -/

/-- The content of store cell `a`; an unlisted cell reads as the reset content (R15). -/
def Store.read : Store → Nat → StoreCell
  | [], _ => .reset
  | (k, c) :: rest, a => if k = a then c else Store.read rest a

/-- Remove cell `a` from the list, so that it reads as the reset content. -/
def Store.erase : Store → Nat → Store
  | [], _ => []
  | (k, c) :: rest, a => if k = a then rest else if a < k then (k, c) :: rest else (k, c) :: Store.erase rest a

/-- Put content `c` at cell `a`, keeping the cell numbers rising. -/
def Store.insert : Store → Nat → StoreCell → Store
  | [], a, c => [(a, c)]
  | (k, d) :: rest, a, c =>
    if k = a then (a, c) :: rest else if a < k then (a, c) :: (k, d) :: rest else (k, d) :: Store.insert rest a c

/-- Write content `c` to cell `a`. Writing the reset content removes the entry; a number beyond 1023 names no cell (R15, log 21). -/
def Store.write (st : Store) (a : Nat) (c : StoreCell) : Store :=
  if 1024 ≤ a then st else if c = StoreCell.reset then st.erase a else st.insert a c

/-- Cell numbers strictly rising from `lo`, each below 1024, no content equal to the reset content. -/
def Store.wfFrom : Nat → Store → Bool
  | _, [] => true
  | lo, (k, c) :: rest => decide (lo ≤ k) && decide (k < 1024) && decide (c ≠ StoreCell.reset) && Store.wfFrom (k + 1) rest

/-- The canonical form of the store. -/
def Store.wf (st : Store) : Bool := st.wfFrom 0

/-- The slot record of a cell; a capture record standing where a slot is read counts as an EMPTY slot (no ring of an enabled line
holds one: R8, R17). -/
def StoreCell.slot (c : StoreCell) : SlotRecord :=
  match c.info with
  | .slot r => r
  | .capture _ => .empty

/-- The metadata of a capture record; a slot standing where a record is read counts as all zero (no unread record is one: R95). -/
def StoreCell.captureInfo (c : StoreCell) : CaptureInfo :=
  match c.info with
  | .capture i => i
  | .slot _ => ⟨0, 0, .none, false, false, false⟩

/-- The slot is FILLED. -/
def StoreCell.filled (c : StoreCell) : Bool := c.slot.state == .filled

/-- The slot is FILLED with MEDIA among its kinds. -/
def StoreCell.holdsMedia (c : StoreCell) : Bool := c.filled && c.slot.kinds.media

/-- Empty `n` cells from `base` on: each reads as an EMPTY slot (R22). -/
def Store.emptyCells (st : Store) (base : Nat) : Nat → Store
  | 0 => st
  | n + 1 => (st.emptyCells base n).write (base + n) .reset

/-- How many of the `n` cells from `base` on are FILLED slots (R22). -/
def Store.countFilled (st : Store) (base : Nat) : Nat → Nat
  | 0 => 0
  | n + 1 => st.countFilled base n + (if (st.read (base + n)).filled then 1 else 0)

/-- Base cell of the line's playout ring (R23). -/
def Line.playBase (L : Line) : Nat := (L.playRing.map RingEntry.base).getD 0

/-- Length Lp of the line's playout ring. -/
def Line.lp (L : Line) : Nat := (L.playRing.map RingEntry.len).getD 0

/-- Base cell of the line's capture ring (R25). -/
def Line.capBase (L : Line) : Nat := (L.capRing.map RingEntry.base).getD 0

/-- Length Lc of the line's capture ring. -/
def Line.lc (L : Line) : Nat := (L.capRing.map RingEntry.len).getD 0

/-- Every slot of the line's playout ring EMPTY (R22). -/
def Store.emptyRing (st : Store) (L : Line) : Store := st.emptyCells L.playBase L.lp

/-! ### Lines -/

/-- The record of a line. -/
def State.line (s : State) (l : Fin 4) : Line := s.lines.get l

/-- The record of a line replaced. -/
def State.setLine (s : State) (l : Fin 4) (L : Line) : State := { s with lines := s.lines.set l L }

/-- The store replaced. -/
def State.setStore (s : State) (st : Store) : State := { s with store := st }

/-! ### The Event Queue (R178, R179) -/

/-- The record is an OVERFLOW record. -/
def EventRecord.isOverflow (r : EventRecord) : Bool :=
  match r.event with
  | .overflow _ => true
  | _ => false

/-- The queue holds an OVERFLOW record; it is always the newest (R179). -/
def overflowed (q : List EventRecord) : Bool :=
  match q.getLast? with
  | some r => r.isOverflow
  | none => false

/-- One more discarded arrival counted in an OVERFLOW record (R179). -/
def EventRecord.discardMore (r : EventRecord) : EventRecord :=
  match r.event with
  | .overflow n => { r with event := .overflow (countUp 65535 n) }
  | _ => r

/-- The arrival of a record (R178, R179). -/
def enqueue (q : List EventRecord) (r : EventRecord) : List EventRecord :=
  if overflowed q then q.dropLast ++ (q.getLast?.map EventRecord.discardMore).toList
  else if q.length < 63 then q ++ [r]
  else q ++ [⟨.overflow 1, none, r.stamp⟩]

/-- The arrival of a record at the part: the queue, and the pulse CIRQ owes for each record appended (R181). -/
def State.arrive (s : State) (r : EventRecord) : State :=
  { s with
    events := enqueue s.events r
    cLink := if overflowed s.events then s.cLink else { s.cLink with irq := s.cLink.irq.owe 255 } }

/-- Records of one line queued in one event, in order, with one stamp (R178). -/
def State.queue (s : State) (l : Fin 4) (stamp : Word32) : List Event → State
  | [] => s
  | e :: rest => (s.arrive ⟨e, some l, stamp⟩).queue l stamp rest

/-- The outcome of an event on a line's record: the record replaced and its event records queued. -/
def State.commitLine (s : State) (l : Fin 4) (stamp : Word32) (r : Line × List Event) : State :=
  (s.setLine l r.1).queue l stamp r.2

/-- The number of the global cell just ended, for the work of a boundary already taken (R3). -/
def State.endedCell (s : State) : Word32 := s.g - 1

/-! ### Links -/

/-- The state of a link. -/
def State.link (s : State) : Link → LinkState
  | .control => s.cLink
  | .media => s.mLink

/-- The state of a link replaced. -/
def State.setLink (s : State) (k : Link) (x : LinkState) : State :=
  match k with
  | .control => { s with cLink := x }
  | .media => { s with mLink := x }

/-- The response bytes of a request: result byte, then response fields (R171). -/
def State.answer (s : State) (k : Link) (r : Result) (fields : List Byte) : State :=
  s.setLink k { s.link k with response := r.byte :: fields }

/-- A refused request, or one taken with NONE: the result byte alone (R173). -/
def State.refuse (s : State) (k : Link) (r : Result) : State := s.answer k r []

/-- A truncated frame (R172): the request is discarded, the sticky FRAME flag of the link is set, nothing is answered. -/
def State.truncated (s : State) (k : Link) : State :=
  s.setLink k { s.link k with frame := true, response := [] }

/-- The sticky SEQUENCE flag of the M-link set (R57). -/
def State.setSequence (s : State) : State := { s with sequence := true }

/-! ### Taking a command -/

/-- A command is taken unless RESET is low (R1: while RESET is low the part takes no request, and the Timebase is HELD). -/
def State.take (s : State) (f : State → State) : Host.Outcome State Fault Refusal :=
  .next (if s.resetLow then s else f s)

/-- What a frame of a link does, unless it is one whose chip select was already low when RESET returned high: that frame is ignored, sets no
flag and is answered nothing, and the link's next frame is taken as usual (R183). -/
def State.hear (s : State) (k : Link) (f : State → State) : State :=
  if (s.link k).ignoring then s.setLink k { s.link k with ignoring := false, response := [] } else f s

/-- A frame of the Control Link. -/
def State.takeControl (s : State) (f : State → State) : Host.Outcome State Fault Refusal := s.take fun s => s.hear .control f

/-- A request's line argument: above 3 it is refused RANGE and nothing changes. -/
def State.withLine (s : State) (k : Link) (b : Byte) (f : Fin 4 → State) : State :=
  match index4 b with
  | some l => f l
  | none => s.refuse k .range

/-- The first check that fails, in the order of a request's table of checks: each check with the result when it fails. -/
def firstFailing : List (Bool × Result) → Option Result
  | [] => none
  | (ok, r) :: rest => if ok then firstFailing rest else some r

/-- A request whose checks are taken in order: refused with the result of the first that fails and otherwise unchanged, else `done`. -/
def State.checked (s : State) (k : Link) (checks : List (Bool × Result)) (done : State) : State :=
  match firstFailing checks with
  | some r => s.refuse k r
  | none => done

/-- An event that changes a line's contexts away from a boundary (R94): the mark of the cell in progress is set when a context that sets it
begins to or ceases to with the event, be another still in progress or not. DESIGN CHOICE, log entry 16: a request or a load taken after a
boundary and before one of the boundary's own works marks the cell in progress, which is the new one, and never the cell just ended; R94
does not say which cell a context belongs to that such a request or load begins or makes ACTIVE and such a work then removes. -/
def Line.touchMark (before after : Line) : Line :=
  { after with
    mark := after.mark || before.foregroundMarks != after.foregroundMarks || before.backgroundMarks != after.backgroundMarks }

end Sys2Proof.Machine
end

