-- ==== Sys2Proof/Decode.lean ====
section
/-! DEFINITION. From outside to commands. The opcode table gives no row any bits, so no table word spells a command. What the links
receive does: a chip-select frame is read here, byte by byte, as the command it carries (R171 to R175), and written from it. -/

namespace Sys2Proof

/-- The command a table word spells: none, since no row of the table has bits (log entry 20). -/
def decodeTableWord (_nbits _w : Nat) : Option Instr := none

end Sys2Proof

namespace Sys2Proof.Machine

/-! ### Bits and bytes of a frame (R171) -/

/-- Eight bits, most significant first, as a byte. -/
def byteOfBits (b : List Bool) : Byte := b.foldl (fun acc x => (acc <<< 1) ||| (if x then 1 else 0)) 0

/-- The bits of a byte as they travel, most significant first. -/
def bitsOfByte (b : Byte) : List Bool := (List.range 8).map fun i => b.getMsbD i

/-- The complete bytes among the first `n` of the bits clocked in; an incomplete last byte is ignored. -/
def bytesOfBits : Nat → List Bool → List Byte
  | 0, _ => []
  | n + 1, bits => if bits.length < 8 then [] else byteOfBits (bits.take 8) :: bytesOfBits n (bits.drop 8)

/-! ### Argument fields, big-endian (R171) -/

/-- A two-byte field. -/
def word16 (hi lo : Byte) : Word16 := hi ++ lo

/-- A four-byte field. -/
def word32 (b3 b2 b1 b0 : Byte) : Word32 := b3 ++ (b2 ++ (b1 ++ b0))

/-- `n` two-byte fields from the front of the bytes, or none when the bytes end before. -/
def readWords : Nat → List Byte → Option (List Word16)
  | 0, _ => some []
  | n + 1, hi :: lo :: rest => (readWords n rest).map fun ws => word16 hi lo :: ws
  | _ + 1, _ => none

/-- `n` segments of WRITE PROGRAM: tone, then duration (R175). -/
def readSegments : Nat → List Byte → Option (List RawSegment)
  | 0, _ => some []
  | n + 1, tone :: hi :: lo :: rest => (readSegments n rest).map fun gs => ⟨tone, word16 hi lo⟩ :: gs
  | _ + 1, _ => none

/-- `n` bytes. -/
def readBytes (n : Nat) (bs : List Byte) : Option (List Byte) := if bs.length < n then none else some (bs.take n)

/-- A counted list: read when the count is accepted, empty when it is refused at the count (R171). -/
def readCounted {α : Type} (ok : Bool) (read : Option (List α)) : Option (List α) := if ok then read else some []

/-! ### Requests with arguments (R175): none where the frame ends before the last argument byte -/

/-- WRITE TONES; a start argument out of range is refused at that argument (log entry 25). -/
def readWriteTones : List Byte → Option Instr
  | start :: rest =>
    if toneStartOk start then
      match rest with
      | count :: fields =>
        (readCounted (toneCountOk count) (readWords count.toNat fields)).map fun ws => .writeTones start count ws
      | [] => none
    else some (.writeTones start 0 [])
  | [] => none

/-- WRITE PROGRAM. -/
def readWriteProgram : List Byte → Option Instr
  | record :: control :: repeats :: count :: rest =>
    (readCounted (segmentCountOk count) (readSegments count.toNat rest)).map fun gs =>
      .writeProgram record control repeats count gs
  | _ => none

/-- LOAD CID. -/
def readLoadCid : List Byte → Option Instr
  | line :: type :: length :: rest =>
    (readCounted (cidLengthOk length) (readBytes length.toNat rest)).map fun p => .loadCid line type length p
  | _ => none

/-- SET PLAYOUT. -/
def readSetPlayout : List Byte → Option Instr
  | line :: av :: af :: k :: p :: l1 :: l0 :: h1 :: h0 :: w1 :: w0 :: q1 :: q0 :: gain :: control :: lead :: capture :: _ =>
    some (.setPlayout line
      ⟨av, af, k, p, word16 l1 l0, word16 h1 h0, word16 w1 w0, word16 q1 q0, gain, control, lead, capture⟩)
  | _ => none

/-- REALIGN: the CLEAR flag tells the two rows apart. -/
def readRealign : List Byte → Option Instr
  | line :: slip :: control :: _ =>
    some (if control.getLsbD 0 then .realignWithClear line slip control else .realign line slip control)
  | _ => none

/-- A control-link request with arguments. -/
def readControl (code : Byte) (args : List Byte) : Option Instr :=
  match code.toNat, args with
  | 0x02, line :: p1 :: p0 :: n1 :: n0 :: c1 :: c0 :: m :: _ =>
    some (.configureLine line (word16 p1 p0) (word16 n1 n0) (word16 c1 c0) m)
  | 0x03, line :: _ => some (.enableLine line)
  | 0x04, line :: _ => some (.disableLine line)
  | 0x05, line :: mode :: _ => some (.setMode line mode)
  | 0x06, line :: control :: attenuation :: _ => some (.setSupervision line control attenuation)
  | 0x08, args => readWriteTones args
  | 0x09, args => readWriteProgram args
  | 0x0A, line :: record :: level :: _ => some (.startSignal line record level)
  | 0x0B, line :: level :: _ => some (.stopSignal line level)
  | 0x0C, args => readLoadCid args
  | 0x0D, line :: entry :: _ => some (.cidAlert line entry)
  | 0x0E, line :: on1 :: on0 :: off1 :: off0 :: bursts :: cid :: d1 :: d0 :: _ =>
    some (.ringStart line (word16 on1 on0) (word16 off1 off0) bursts cid (word16 d1 d0))
  | 0x0F, line :: _ => some (.ringStop line)
  | 0x10, maximum :: _ => some (.readEvents maximum)
  | 0x70, line :: _ => some (.lineStatus .control line)
  | 0x7E, mode :: _ => some (.setIrqMode .control mode)
  | _, _ => none

/-- A media-link request with arguments. -/
def readMedia (code : Byte) (args : List Byte) : Option Instr :=
  match code.toNat, args with
  | 0x40, mask :: source :: t3 :: t2 :: t1 :: t0 :: control :: gain :: _ =>
    some (.openDeposit mask source (word32 t3 t2 t1 t0) control gain)
  | 0x41, n1 :: n0 :: rest =>
    (readCounted (dataCountOk (word16 n1 n0)) (readWords (word16 n1 n0).toNat rest)).map fun xs => .depositData (word16 n1 n0) xs
  | 0x44, mask :: source :: t3 :: t2 :: t1 :: t0 :: control :: gain :: _ =>
    some (.fillCells mask source (word32 t3 t2 t1 t0) control gain 4)
  | 0x45, n1 :: n0 :: rest =>
    (readCounted (patternCountOk (word16 n1 n0)) (readWords (word16 n1 n0).toNat rest)).map fun xs =>
      .loadFillPattern (word16 n1 n0) xs
  | 0x46, args => readSetPlayout args
  | 0x47, args => readRealign args
  | 0x48, line :: maximum :: _ => some (.captureRead line maximum)
  | 0x49, line :: _ => some (.readAndClearStatistics line)
  | 0x70, line :: _ => some (.lineStatus .media line)
  | 0x7E, mode :: _ => some (.setIrqMode .media mode)
  | _, _ => none

/-- A request with arguments. -/
def readArguments : Link → Byte → List Byte → Option Instr
  | .control, code, args => readControl code args
  | .media, code, args => readMedia code args

/-- A request of no arguments, taken at its code byte. -/
def readBare (k : Link) (code : Byte) : Option Instr :=
  match k, code.toNat with
  | .control, 0x01 => some .startTimebase
  | .media, 0x42 => some (.commitDeposit 4)
  | .media, 0x43 => some .abandonDeposit
  | k, 0x7C => some (.readLinkStatus k)
  | k, 0x7D => some (.clearLinkStatus k)
  | _, _ => none

/-- The command that a frame with these complete bytes carries; none when no code byte is complete (R171 to R173). -/
def readFrame (k : Link) : List Byte → Option Instr
  | [] => none
  | code :: args =>
    if (argumentCodes k).contains code then some ((readArguments k code args).getD (.truncatedFrame k code))
    else some ((readBare k code).getD (.unknownCode k code))

/-! ### The frame of a command -/

/-- A list of two-byte fields. -/
def writeWords (ws : List Word16) : List Byte := ws.flatMap bytes2

/-- The segments of WRITE PROGRAM. -/
def writeSegments (gs : List RawSegment) : List Byte := gs.flatMap fun g => g.tone :: bytes2 g.duration

/-- The sixteen value bytes of SET PLAYOUT. -/
def writePlayout (v : RawPlayout) : List Byte :=
  [v.voiceDepth, v.faxDepth, v.starve, v.patience] ++ bytes2 v.lowWater ++ bytes2 v.highWater ++ bytes2 v.window ++ bytes2 v.quiet
    ++ [v.fillGain, v.control, v.lead, v.capture]

/-- The link and the bytes, code byte first, of the frame that carries a request as far as its last argument byte; none for what is not
a frame. A truncated frame is written as its code byte alone. A COMMIT DEPOSIT or FILL CELLS as the link brings it takes every line of its
mask; a command that takes only some of the writes is a part of one, and no frame of its own (log entry 18). -/
def frameOf : Instr → Option (Link × List Byte)
  | .startTimebase => some (.control, [0x01])
  | .configureLine line p n c m => some (.control, [0x02, line] ++ bytes2 p ++ bytes2 n ++ bytes2 c ++ [m])
  | .enableLine line => some (.control, [0x03, line])
  | .disableLine line => some (.control, [0x04, line])
  | .setMode line mode => some (.control, [0x05, line, mode])
  | .setSupervision line control attenuation => some (.control, [0x06, line, control, attenuation])
  | .writeTones start count fields =>
    some (.control, if toneStartOk start then [0x08, start, count] ++ writeWords fields else [0x08, start])
  | .writeProgram record control repeats count segments =>
    some (.control, [0x09, record, control, repeats, count] ++ writeSegments segments)
  | .startSignal line record level => some (.control, [0x0A, line, record, level])
  | .stopSignal line level => some (.control, [0x0B, line, level])
  | .loadCid line type length payload => some (.control, [0x0C, line, type, length] ++ payload)
  | .cidAlert line entry => some (.control, [0x0D, line, entry])
  | .ringStart line on off bursts cid delay =>
    some (.control, [0x0E, line] ++ bytes2 on ++ bytes2 off ++ [bursts, cid] ++ bytes2 delay)
  | .ringStop line => some (.control, [0x0F, line])
  | .readEvents maximum => some (.control, [0x10, maximum])
  | .openDeposit mask source time control gain => some (.media, [0x40, mask, source] ++ bytes4 time ++ [control, gain])
  | .depositData count samples => some (.media, 0x41 :: bytes2 count ++ writeWords samples)
  | .commitDeposit writes => if writes = 4 then some (.media, [0x42]) else none
  | .abandonDeposit => some (.media, [0x43])
  | .fillCells mask source time control gain writes =>
    if writes = 4 then some (.media, [0x44, mask, source] ++ bytes4 time ++ [control, gain]) else none
  | .loadFillPattern count samples => some (.media, 0x45 :: bytes2 count ++ writeWords samples)
  | .setPlayout line values => some (.media, [0x46, line] ++ writePlayout values)
  | .realign line slip control => some (.media, [0x47, line, slip, control])
  | .realignWithClear line slip control => some (.media, [0x47, line, slip, control])
  | .captureRead line maximum => some (.media, [0x48, line, maximum])
  | .readAndClearStatistics line => some (.media, [0x49, line])
  | .lineStatus link line => some (link, [0x70, line])
  | .readLinkStatus link => some (link, [0x7C])
  | .clearLinkStatus link => some (link, [0x7D])
  | .setIrqMode link mode => some (link, [0x7E, mode])
  | .unknownCode link code => some (link, [code])
  | .truncatedFrame link code => some (link, [code])
  | .deviceReset _ _ _ => none
  | .highwayFrame _ _ => none
  | .globalCellBoundary => none
  | .startBoundary _ => none
  | .load _ => none
  | .starve _ => none
  | .windowClose _ => none
  | .signalDone _ => none
  | .alertEnd _ => none
  | .cidNoAck _ => none
  | .settleEnd _ => none
  | .cidSent _ => none
  | .captureStore _ => none
  | .mirqPulse _ => none
  | .toneDetectorStep _ => none
  | .digit _ => none
  | .digitEnd _ => none
  | .faxCalling _ => none
  | .faxAnswer _ _ => none
  | .hookSample _ => none
  | .offHook _ => none
  | .onHook _ => none
  | .pulseDigit _ => none
  | .burstEnd _ => none
  | .burstBegin _ => none
  | .cidSend _ => none
  | .cirqPulse _ => none

/-! ### What the data output sends (R171) -/

/-- The byte the data output of a link (CSDO or MSDO) sends as the `n`-th of a frame whose request took `arguments` bytes, code byte
included, and was answered with the link's response: 0 while code and arguments are clocked in, then the response, then 0 (R171). High
impedance (none) while RESET is low (R1) and while the chip select is high (00_scope, Pin summary). -/
def State.outputByte (s : State) (k : Link) (selected : Bool) (arguments n : Nat) : Option Byte :=
  if s.resetLow || !selected then none
  else some (if n < arguments then 0 else (s.link k).response.getD (n - arguments) 0)

/-- A bit of the data output, `i`-th of a frame: each byte most significant bit first (R171). -/
def State.outputBit (s : State) (k : Link) (selected : Bool) (arguments i : Nat) : Option Bool :=
  (s.outputByte k selected arguments (i / 8)).map fun b => b.getMsbD (i % 8)

end Sys2Proof.Machine
end

