-- ==== Sys2Proof/Machine/Tones.lean ====
section
/-! DEFINITION. Tone synthesis (7.3) and FSK (8.2): increments, amplitudes, the rounded sine, cells of samples. -/

namespace Sys2Proof.Machine

/-! ### Increment and amplitude (R110) -/

/-- round(f × 65536 / 8000), rounding half away from zero (R110). -/
def increment (f : Nat) : Word16 := BitVec.ofNat 16 ((f * 65536 * 2 + 8000) / 16000)

/-- `r` is at most round(16384 × 10^(−a/40)): exactly, (2r − 1)^40 × 10^a ≤ 32768^40 (R110). No value of the formula lies
half way between two integers. -/
def amplitudeReaches (a r : Nat) : Bool := decide ((2 * r - 1) ^ 40 * 10 ^ a ≤ 32768 ^ 40)

/-- The greatest value the amplitude reaches, found bit by bit from the highest. -/
def amplitudeFrom (a : Nat) : List Nat → Nat → Nat
  | [], r => r
  | b :: rest, r => amplitudeFrom a rest (if amplitudeReaches a (r + b) then r + b else r)

/-- round(16384 × 10^(−a/40)), rounding half away from zero (R110, R129). -/
def ampOf (a : Nat) : Nat :=
  amplitudeFrom a [16384, 8192, 4096, 2048, 1024, 512, 256, 128, 64, 32, 16, 8, 4, 2, 1] 0

/-! ### The sine (R111)

The manual gives each term as the rounding of a real number. The model computes the sine of a quarter turn by its series in fixed
point of 64 binary places. The series error is below 2^-55, and over every amplitude and every phase the exact term never lies
closer than 10^-8 to a half, so the rounding is that of the exact term (log entry 11). -/

/-- One place of the fixed-point scale. -/
def sineScale : Nat := 2 ^ 64

/-- floor(π × 2^64). -/
def piScaled : Nat := 57952155664616982739

/-- The alternating series from its `k`-th term `t` on, with `x2` the squared angle. -/
def sineSeries : Nat → Nat → Nat → Nat → Nat
  | 0, _, t, _ => t
  | n + 1, k, t, x2 => t - sineSeries n (k + 1) (t * x2 / sineScale / ((2 * k + 2) * (2 * k + 3))) x2

/-- sin(π/2 × q/16384) × 2^64 for q = 0..16384. -/
def quarterSine (q : Nat) : Nat :=
  let angle := q * piScaled / 2 ^ 15
  sineSeries 12 0 angle (angle * angle / sineScale)

/-- round(amp × sin(π/2 × q/16384)) for q = 0..16384, a magnitude. -/
def quarterTerm (amp q : Nat) : Nat := (2 * amp * quarterSine q + sineScale) / (2 * sineScale)

/-- round(amp × sin(2π·φ/65536)), rounded half away from zero (R111, R129). -/
def sineTerm (amp : Nat) (phase : Word16) : Int :=
  let p := phase.toNat
  if p < 16384 then quarterTerm amp p
  else if p < 32768 then quarterTerm amp (32768 - p)
  else if p < 49152 then -(quarterTerm amp (p - 32768) : Int)
  else -(quarterTerm amp (65536 - p) : Int)

/-! ### Tone segments (R110, R111) -/

/-- A tone segment begins: the entry is copied, increments and amplitude are computed, phases are 0 (R110). A component of
frequency 0 is absent: its increment is 0, so its phase stays 0 and its term is 0. -/
def Tone.start (e : ToneEntry) : Tone := ⟨increment e.freqA, increment e.freqB, ampOf e.attenuation, 0, 0⟩

/-- The context's tone before any tone segment has begun. DESIGN CHOICE, log entry 30: all 0; R110 gives increments, amplitude and phases a
value when a tone segment begins, and before that they have none and nothing reads them. -/
def Tone.idle : Tone := ⟨0, 0, 0, 0, 0⟩

/-- The sample of the present phases (R111). -/
def Tone.sample (t : Tone) : Sample := saturate (sineTerm t.amplitude t.phaseA + sineTerm t.amplitude t.phaseB)

/-- Each phase advances by its increment, modulo 65536 (R111). -/
def Tone.advance (t : Tone) : Tone := { t with phaseA := t.phaseA + t.incA, phaseB := t.phaseB + t.incB }

/-- The next `n` samples of a tone. -/
def Tone.samples : Nat → Tone → List Sample
  | 0, _ => []
  | n + 1, t => t.sample :: Tone.samples n t.advance

/-- The tone after `n` samples. -/
def Tone.after : Nat → Tone → Tone
  | 0, t => t
  | n + 1, t => Tone.after n t.advance

/-! ### FSK (R129 to R131) -/

/-- Bytes of a CID message as sent: type, length, payload, checksum (8.1). -/
def CidMessage.bytes (m : CidMessage) : List Byte := m.type :: byte m.payload.length :: (m.payload ++ [m.checksum])

/-- Checksum: 256 less the sum of type, length and payload modulo 256, modulo 256 (R127). -/
def cidChecksum (type : Byte) (payload : List Byte) : Byte :=
  0 - (type + byte payload.length + payload.foldl (· + ·) 0)

/-- Bits of the preamble: 480 on hook, 80 off hook (R131). -/
def preambleBits (onHook : Bool) : Nat := if onHook then 480 else 80

/-- Number of bits of the FSK of a message (R131). -/
def fskBits (onHook : Bool) (m : CidMessage) : Nat := preambleBits onHook + 10 * m.bytes.length

/-- Bit `i` of the FSK, counted from 0; true is mark (R131). -/
def fskBit (onHook : Bool) (m : CidMessage) (i : Nat) : Bool :=
  if onHook && i < 300 then i % 2 == 1
  else if i < preambleBits onHook then true
  else
    let j := i - preambleBits onHook
    let k := j % 10
    if k = 0 then false
    else if k = 9 then true
    else (m.bytes.getD (j / 10) 0).getLsbD (k - 1)

/-- Increment of a bit: 9830 for mark, 18022 for space (R129). -/
def bitIncrement (mark : Bool) : Word16 := if mark then 9830 else 18022

/-- The FSK begins with phase 0, accumulator 0 and the amplitude of the line's CID attenuation (R129). -/
def Fsk.start (attenuation : Nat) : Fsk := ⟨0, 0, 0, ampOf attenuation⟩

/-- All bits of the FSK have been sent. -/
def Fsk.done (onHook : Bool) (m : CidMessage) (f : Fsk) : Bool := decide (fskBits onHook m ≤ f.bit)

/-- The next sample: that of the phase, or 0 after the last bit (R129, R132). -/
def Fsk.sample (onHook : Bool) (m : CidMessage) (f : Fsk) : Sample :=
  if f.done onHook m then 0 else saturate (sineTerm f.amplitude f.phase)

/-- After each sample the phase advances by the increment of its bit and the accumulator by 3; at 20 or more the bit ends (R129, R130). -/
def Fsk.advance (onHook : Bool) (m : CidMessage) (f : Fsk) : Fsk :=
  if f.done onHook m then f
  else
    let phase := f.phase + bitIncrement (fskBit onHook m f.bit)
    if 20 ≤ f.accumulator + 3 then { f with phase := phase, accumulator := f.accumulator + 3 - 20, bit := f.bit + 1 }
    else { f with phase := phase, accumulator := f.accumulator + 3 }

/-- The next `n` samples of an FSK. -/
def Fsk.samples (onHook : Bool) (m : CidMessage) : Nat → Fsk → List Sample
  | 0, _ => []
  | n + 1, f => f.sample onHook m :: Fsk.samples onHook m n (f.advance onHook m)

/-- The FSK after `n` samples. -/
def Fsk.after (onHook : Bool) (m : CidMessage) : Nat → Fsk → Fsk
  | 0, f => f
  | n + 1, f => Fsk.after onHook m n (f.advance onHook m)

end Sys2Proof.Machine
end

