-- ==== Sys2Proof/Machine/Contexts.lean ====
section
/-! DEFINITION. The generator contexts of a line and what begins, suspends, resumes, cuts and ends them (7.4, 7.7), with the ends of
caller identification (8.3, 8.4) and of ringing (9.3) that the other blocks share. -/

namespace Sys2Proof.Machine

/-- What a line becomes in an event, and the records the event queues, in order. -/
abbrev LineStep := Line × List Event

/-! ### The stack of contexts (R112) -/

/-- A background made SUSPENDED keeps every other field (R115). -/
def Context.suspend (c : Context) : Context := { c with state := .suspended }

/-- A background made ACTIVE (R117). -/
def Context.resume (c : Context) : Context := { c with state := .active }

/-- A foreground context is created; a background becomes SUSPENDED in the same event (R112, R115). -/
def Line.putForeground (L : Line) (c : Context) : Line :=
  { L with foreground := some c, background := L.background.map Context.suspend }

/-- The foreground context is removed; a background becomes ACTIVE in the same event and renders from the next load (R112, R117). -/
def Line.dropForeground (L : Line) : Line :=
  { L with foreground := none, background := L.background.map Context.resume }

/-- The background context is removed (R117). -/
def Line.dropBackground (L : Line) : Line := { L with background := none }

/-- A context refers to program record `r` (R109). -/
def Context.refersTo (r : Nat) (c : Context) : Bool :=
  match c.kind with
  | .program i _ => i == r
  | _ => false

/-- A context of the line refers to program record `r` (R109). -/
def Line.refersTo (L : Line) (r : Nat) : Bool :=
  (L.background.map (Context.refersTo r)).getD false || (L.foreground.map (Context.refersTo r)).getD false

/-- The context is a program context. -/
def Context.isProgram (c : Context) : Bool :=
  match c.kind with
  | .program _ _ => true
  | _ => false

/-- A program's record read from the program table (R108). -/
def programAt (programs : List ProgramRecord) (r : Nat) : ProgramRecord :=
  programs.getD r ⟨.overlay, 0, false, []⟩

/-- A new context for a program record, not yet begun (R114, R115). -/
def Context.ofProgram (record : Nat) (p : ProgramRecord) (state : CtxState) : Context :=
  ⟨state, p.output, .program record ⟨0, 0, if p.repeats = 0 then none else some p.repeats, .idle⟩⟩

/-! ### Cut by a digit (R121) -/

/-- The background is of a program with cut-on-digit set. -/
def Line.cutsOnDigit (programs : List ProgramRecord) (L : Line) : Bool :=
  match L.background with
  | some c =>
    match c.kind with
    | .program r _ => (programAt programs r).cutOnDigit
    | _ => false
  | none => false

/-- A dialled digit cuts a background with cut-on-digit, ACTIVE or SUSPENDED, with its record (R121). -/
def Line.cutBackground (programs : List ProgramRecord) (L : Line) : LineStep :=
  if L.cutsOnDigit programs then (L.dropBackground, [.signalCancelled .background .digit]) else (L, [])

/-! ### Ringing and the on-hook CID (R136, R155, R157) -/

/-- The Ring Controller becomes IDLE: period and CID fields absent, RINGEN low, no ring step left to take (R155). -/
def Line.ringIdle (L : Line) : Line :=
  { L with ring := { L.ring with state := .idle, cid := none }, due := { L.due with ring := false } }

/-- The ring state replaced. -/
def Line.setRing (L : Line) (r : RingState) : Line := { L with ring := { L.ring with state := r } }

/-- The context is an on-hook CID. -/
def Context.isOnHookCid (c : Context) : Bool :=
  match c.kind with
  | .onHookCid _ => true
  | _ => false

/-- The on-hook CID ends: the buffer is FREE, the ring record's CID option is none, and the ON-HOOK CID context is removed if there is
one, a SUSPENDED background then becoming ACTIVE (R136, R132). -/
def Line.endOnHookCid (L : Line) : Line :=
  let L := { L with cid := { L.cid with inUse := false }, ring := { L.ring with cid := none } }
  if (L.foreground.map Context.isOnHookCid).getD false then L.dropForeground else L

/-- The off-hook CID ends: its context is removed, the buffer is FREE, a SUSPENDED background resumes (R139, R141). -/
def Line.endOffHookCid (L : Line) : Line :=
  { L with cid := { L.cid with inUse := false } }.dropForeground

/-- The ringing ends, as ring trip or by RING STOP: an on-hook CID scheduled or sending is aborted with `cause`, and the controller is
IDLE (R136, R155, R156). -/
def Line.endRinging (L : Line) (cause : AbortCause) : LineStep :=
  if L.ring.holdsCid then (L.endOnHookCid.ringIdle, [.cidAborted cause]) else (L.ringIdle, [])

/-- A ringing whose on-hook CID has ended in CID-DELAY or CID-SEND: with burst count 1 no burst is left, so it becomes IDLE with RING
DONE cause COUNT; otherwise it enters OFF with the period remaining it held (R135, R136, R157). -/
def Line.afterCid (L : Line) : LineStep :=
  match L.ring.state with
  | .cidDelay begun remaining _ =>
    if L.ring.bursts = 1 then (L.ringIdle, [.ringDone .count]) else (L.setRing (.off begun remaining), [])
  | .cidSend begun remaining =>
    if L.ring.bursts = 1 then (L.ringIdle, [.ringDone .count]) else (L.setRing (.off begun remaining), [])
  | _ => (L, [])

/-! ### What a qualified ON-HOOK removes (R122, R141) -/

/-- The foreground is ended by a qualified ON-HOOK: an off-hook CID with CID ABORTED, a program with SIGNAL CANCELLED; an on-hook CID
is left in place (R122). -/
def Line.onHookForeground (L : Line) : LineStep :=
  match L.foreground with
  | some c =>
    match c.kind with
    | .offHookCid _ => (L.endOffHookCid, [.cidAborted .onHook])
    | .program _ _ => (L.dropForeground, [.signalCancelled .foreground .onHook])
    | .onHookCid _ => (L, [])
  | none => (L, [])

/-- The background is ended by a qualified ON-HOOK (R122). -/
def Line.onHookBackground (L : Line) : LineStep :=
  match L.background with
  | some _ => (L.dropBackground, [.signalCancelled .background .onHook])
  | none => (L, [])

/-- What a qualified ON-HOOK takes on the line's contexts, in the order of R147. -/
def Line.onHookContexts (L : Line) : LineStep :=
  let a := L.onHookForeground
  let b := a.1.onHookBackground
  (b.1, a.2 ++ b.2)

/-! ### What a mode change removes (R123, R136, R141) -/

/-- A CID, or a program in the foreground, is ended by a mode change. An on-hook CID scheduled or sending ends by R136, whose RING
DONE follows its CID ABORTED record (R157). -/
def Line.modeForeground (L : Line) : LineStep :=
  if L.ring.holdsCid then
    let a := L.endOnHookCid.afterCid
    (a.1, .cidAborted .fax :: a.2)
  else
    match L.foreground with
    | some c =>
      match c.kind with
      | .offHookCid _ => (L.endOffHookCid, [.cidAborted .fax])
      | .program _ _ => (L.dropForeground, [.signalCancelled .foreground .fax])
      | .onHookCid _ => (L.dropForeground, [])
    | none => (L, [])

/-- The background is ended by a mode change (R123). -/
def Line.modeBackground (L : Line) : LineStep :=
  match L.background with
  | some _ => (L.dropBackground, [.signalCancelled .background .fax])
  | none => (L, [])

end Sys2Proof.Machine
end

