-- ==== Sys2Proof/Machine/CallerId.lean ====
section
/-! DEFINITION. The Caller-ID Unit's requests: LOAD_CID (R126 to R128) and CID_ALERT (R137). -/

namespace Sys2Proof.Machine

/-- The message LOAD CID forms, with its checksum (R127). -/
def CidMessage.of (type : Byte) (payload : List Byte) : CidMessage := ⟨type, payload, cidChecksum type payload⟩

/-- The line's buffer LOADED with a message; its use stays FREE (R127). -/
def Line.loadMessage (L : Line) (m : CidMessage) : Line := { L with cid := { L.cid with message := some m } }

/-- LOAD_CID (R127). A length above 60 is refused at the length; a payload shorter than an accepted length is a truncated frame. -/
def execLoadCid (line type length : Byte) (payload : List Byte) (s : State) : Host.Outcome State Fault Refusal :=
  s.takeControl fun s =>
    if !cidLengthOk length then s.refuse .control .range
    else if payload.length < length.toNat then s.truncated .control
    else s.withLine .control line fun l =>
      s.checked .control [ ((s.line l).enabled, .state), (!(s.line l).cid.inUse, .inUse) ]
        ((s.setLine l ((s.line l).loadMessage (CidMessage.of type (payload.take length.toNat)))).answer .control .ok
          [cidChecksum type (payload.take length.toNat)])

/-- The checks of CID ALERT after the line number, in order (R137). -/
def cidAlertChecks (L : Line) (entry : Byte) : List (Bool × Result) :=
  [ (decide (entry.toNat ≤ 31), .range),
    (L.enabled, .state),
    (L.offHook, .onHook),
    (L.mode == .voice, .faxMode),
    (L.cid.message.isSome, .state),
    (L.foreground.isNone, .busy) ]

/-- What a taken CID ALERT does (R137): the buffer IN USE, an OFF-HOOK CID context in phase ALERT in the foreground. -/
def Line.startAlert (L : Line) (entry : Nat) : Line :=
  L.touchMark ({ L with cid := { L.cid with inUse := true } }.putForeground
    ⟨.active, .exclusive, .offHookCid ⟨entry, .alert, 0, none, none⟩⟩)

/-- CID_ALERT (R137). -/
def execCidAlert (line entry : Byte) (s : State) : Host.Outcome State Fault Refusal :=
  s.takeControl fun s => s.withLine .control line fun l =>
    s.checked .control (cidAlertChecks (s.line l) entry)
      ((s.setLine l ((s.line l).startAlert entry.toNat)).answer .control .ok [])

end Sys2Proof.Machine
end

