-- ==== Sys2Proof/Machine/Gain.lean ====
section
/-! DEFINITION. The mix arithmetic (4.5): invert, gain step, and the rounding that concealment shares (R58, R59, R74). -/

namespace Sys2Proof.Machine

/-- Shift right arithmetically by `k` places and add the last bit shifted out, bit k − 1 (R59). For k = 0 the value passes. -/
def shiftRound (k : Nat) (x : Int) : Int :=
  match k with
  | 0 => x
  | k + 1 => x / 2 ^ (k + 1) + (x / 2 ^ k) % 2

/-- The gain step `g` on one sample (R59). -/
def gainStep (g : Int) (x : Sample) : Sample :=
  if g < 0 then BitVec.ofInt 16 (shiftRound g.natAbs x.toInt) else saturate (x.toInt * 2 ^ g.natAbs)

/-- Invert (R58): −x, with −(−32768) saturated to 32767. -/
def invertSample (x : Sample) : Sample := saturate (-x.toInt)

/-- Invert, then gain, on a cell (R58, R59). -/
def transform (invert : Bool) (g : Int) (cell : List Sample) : List Sample :=
  cell.map fun x => gainStep g (if invert then invertSample x else x)

/-- Sample sums, each saturated on its own (R60, R76). -/
def addCells (stored added : List Sample) : List Sample :=
  List.zipWith (fun a b => saturate (a.toInt + b.toInt)) stored added

/-- The repeat buffer attenuated by the run `k` (R74): the rounding of R59. -/
def attenuate (k : Nat) (cell : List Sample) : List Sample :=
  cell.map fun x => BitVec.ofInt 16 (shiftRound k x.toInt)

end Sys2Proof.Machine
end

