-- ==== Sys2Proof/Machine/Writes.lean ====
section
/-! DEFINITION. The write of one line, shared by COMMIT DEPOSIT and FILL CELLS: anchoring, distance, alignment, sorting, mixing, and the
report (R30 to R46, R60 to R63, R83). -/

namespace Sys2Proof.Machine

/-- What happened to the cells of a write on a line. -/
structure Tally where
  written : Nat
  late : Nat
  early : Nat
  duplicate : Nat
deriving DecidableEq, Repr

/-- Whether a line's write was carried out (R30, R39). -/
inductive WriteStatus where
  | done
  | misaligned
  | off
deriving DecidableEq, Repr

/-- The report of a line's write. -/
structure WriteReport where
  status : WriteStatus
  tally : Tally
  margin : Int
deriving DecidableEq, Repr

/-- Nothing counted. -/
def Tally.zero : Tally := ⟨0, 0, 0, 0⟩

/-! ### Anchoring (R31 to R34) -/

/-- The write anchors its source (R31). -/
def Line.anchorsAt (L : Line) (w : Write) : Bool :=
  match L.anchors.get w.source with
  | .anchored _ => w.mark
  | _ => true

/-- The anchor depth of the line's mode (R32). -/
def Line.depth (L : Line) : Nat :=
  match L.mode with
  | .voice => L.config.voiceDepth
  | .fax => L.config.faxDepth

/-- The new offset (H + 40·A − T) mod 2^32 (R32). -/
def Line.newOffset (L : Line) (time : Word32) : Word32 := L.horizon + BitVec.ofNat 32 (40 * L.depth) - time

/-- The record after an anchoring write: ANCHORED, and an IDLE line in RUNNING with run 0 (R32, R34). -/
def Line.anchored (L : Line) (w : Write) : Line :=
  { L with
    anchors := L.anchors.set w.source (.anchored (L.newOffset w.time))
    playout := if L.playout = .idle then .running else L.playout
    run := if L.playout = .idle then 0 else L.run }

/-- A slot from which source `s` is cleared (R33): EMPTY when it held `s` alone, else kept without `s`. -/
def StoreCell.dropSource (c : StoreCell) (s : Fin 4) : StoreCell :=
  if c.slot.sources.get s then
    if c.slot.sources.set s false = Four.all false then .reset
    else { c with info := .slot { c.slot with sources := c.slot.sources.set s false } }
  else c

/-- Source `s` cleared from the `n` slots from `base` on (R33). -/
def Store.clearSource (st : Store) (s : Fin 4) (base : Nat) : Nat → Store
  | 0 => st
  | n + 1 =>
    let st' := st.clearSource s base n
    st'.write (base + n) ((st'.read (base + n)).dropSource s)

/-- The line once step 2 of R30 is taken. -/
def Line.settledAnchor (L : Line) (w : Write) : Line := if L.anchorsAt w then L.anchored w else L

/-- The store once step 2 of R30 is taken. -/
def Store.settledAnchor (st : Store) (L : Line) (w : Write) : Store :=
  if L.anchorsAt w then st.clearSource w.source L.playBase L.lp else st

/-! ### Distance (R38) -/

/-- The offset of a source; 0 where its record holds none (no write reads it there). -/
def Line.offset (L : Line) (s : Fin 4) : Word32 :=
  match L.anchors.get s with
  | .anchored o => o
  | _ => 0

/-- The distance d0 = (T + o − H) mod 2^32 as a signed value (R38). -/
def Line.distance (L : Line) (w : Write) : Int := (w.time + L.offset w.source - L.horizon).toInt

/-! ### Sorting and mixing (R40, R41, R60 to R63) -/

/-- The set {s}. -/
def only (s : Fin 4) : Four Bool := (Four.all false).set s true

/-- A kind added to the kinds. -/
def Kinds.add (k : Kinds) : WriteKind → Kinds
  | .media => { k with media := true }
  | .fill => { k with fill := true }

/-- The slot already holds the source under ADD (R62). -/
def StoreCell.duplicates (c : StoreCell) (w : Write) : Bool := c.filled && w.mix == .add && c.slot.sources.get w.source

/-- The slot after a cell is mixed into it (R21, R60). -/
def StoreCell.mixed (c : StoreCell) (w : Write) (cell : List Sample) : StoreCell :=
  if c.filled then
    match w.mix with
    | .replace => ⟨cell, .slot ⟨.filled, only w.source, c.slot.kinds.add w.kind⟩⟩
    | .add => ⟨addCells c.samples cell, .slot ⟨.filled, c.slot.sources.set w.source true, c.slot.kinds.add w.kind⟩⟩
  else ⟨cell, .slot ⟨.filled, only w.source, (⟨false, false⟩ : Kinds).add w.kind⟩⟩

/-- Store cell of the slot at distance `d` ahead of the horizon (R23). -/
def Line.slotAt (L : Line) (d : Int) : Nat := L.playBase + (L.hs + d.toNat / 40) % L.lp

/-- One cell of a write, at distance d0 + 40·i taken as an ordinary integer: late, early, duplicate or written (R40, R62). -/
def Line.placeCell (L : Line) (w : Write) (d0 : Int) (a : Store × Tally) (c : Nat × List Sample) : Store × Tally :=
  let d := d0 + 40 * c.1
  if d < 0 then (a.1, { a.2 with late := a.2.late + 1 })
  else if 40 * (L.lp : Int) ≤ d then (a.1, { a.2 with early := a.2.early + 1 })
  else if (a.1.read (L.slotAt d)).duplicates w then (a.1, { a.2 with duplicate := a.2.duplicate + 1 })
  else (a.1.write (L.slotAt d) ((a.1.read (L.slotAt d)).mixed w c.2), { a.2 with written := a.2.written + 1 })

/-- All cells of a write, in ascending order (R30, 5). -/
def Line.placeCells (L : Line) (w : Write) (d0 : Int) (st : Store) : Store × Tally :=
  w.cells.foldl (L.placeCell w d0) (st, .zero)

/-! ### Statistics and margin (R43, R44, R83) -/

/-- The margin: d0 clamped to −32768..32767 (R44). -/
def margin (d0 : Int) : Int := clampInt (-32768) 32767 d0

/-- The margin window after a write: the least margin of the lead source's deposits (R83). -/
def Line.gather (L : Line) (w : Write) (d0 : Int) : Window :=
  if w.kind = .media ∧ w.source = L.config.lead then
    { L.window with minimum := some (match L.window.minimum with | some m => min m (margin d0) | none => margin d0) }
  else L.window

/-- The line after step 6 of R30. -/
def Line.countWrite (L : Line) (w : Write) (d0 : Int) (t : Tally) : Line :=
  { L with
    stats := { L.stats with
      late := countBy 65535 t.late L.stats.late
      early := countBy 65535 t.early L.stats.early
      duplicate := countBy 65535 t.duplicate L.stats.duplicate }
    window := L.gather w d0 }

/-! ### The write of one line (R30) -/

/-- The write of one line, as one event: the line, the store and the report. -/
def Line.write (L : Line) (w : Write) (st : Store) : Line × Store × WriteReport :=
  if L.enabled then
    let L' := L.settledAnchor w
    let st' := st.settledAnchor L w
    let d0 := L'.distance w
    if d0 % 40 = 0 then
      let r := L'.placeCells w d0 st'
      (L'.countWrite w d0 r.2, r.1, ⟨.done, r.2, margin d0⟩)
    else (L', st', ⟨.misaligned, .zero, margin d0⟩)
  else (L, st, ⟨.off, .zero, 0⟩)

/-- The write of one line on the state. -/
def State.writeLine (s : State) (w : Write) (l : Fin 4) : State :=
  let r := (s.line l).write w s.store
  (s.setLine l r.1).setStore r.2.1

/-- The report of that write. -/
def State.reportLine (s : State) (w : Write) (l : Fin 4) : WriteReport := ((s.line l).write w s.store).2.2

/-- The lines of a mask written one after another (R26, R45). -/
def State.writeLines (s : State) (w : Write) (ls : List (Fin 4)) : State := ls.foldl (fun s l => s.writeLine w l) s

/-- Their reports, each as found at that line's own write. -/
def State.reportLines (s : State) (w : Write) : List (Fin 4) → List WriteReport
  | [] => []
  | l :: rest => s.reportLine w l :: (s.writeLine w l).reportLines w rest

/-! ### Report bytes (R42, R175) -/

/-- Outcome byte of a deposit of `n` cells (R42, R175). -/
def WriteReport.outcome (n : Nat) (r : WriteReport) : Byte :=
  match r.status with
  | .off => 6
  | .misaligned => 5
  | .done =>
    if r.tally.late = n then 2
    else if r.tally.early = n then 4
    else if r.tally.late ≠ 0 then 1
    else if r.tally.early ≠ 0 then 3
    else 0

/-- The six bytes of a line in a commit's response. -/
def WriteReport.commitBytes (n : Nat) (r : WriteReport) : List Byte :=
  [r.outcome n, byte r.tally.late, byte r.tally.early, byte r.tally.duplicate] ++ int2 r.margin

/-- Status byte of a fill (R67, R175). -/
def WriteStatus.byte : WriteStatus → Byte
  | .done => 0
  | .misaligned => 5
  | .off => 6

/-- The five bytes of a line in a fill's response. -/
def WriteReport.fillBytes (r : WriteReport) : List Byte :=
  [r.status.byte, Machine.byte r.tally.written, Machine.byte r.tally.late, Machine.byte r.tally.early,
    Machine.byte r.tally.duplicate]

/-- The response fields of a line: those of a commit (R54) or of a fill (R67). -/
def WriteReport.bytes (w : Write) (r : WriteReport) : List Byte :=
  match w.kind with
  | .media => r.commitBytes w.cells.length
  | .fill => r.fillBytes

/-! ### The lines of a commit or a fill, one write event each (R26, R45, R54) -/

/-- A commit or a fill taken: every line of its mask is still to be written. -/
def State.beginWrites (s : State) (w : Write) (ls : List (Fin 4)) : State := { s with job := some ⟨w, ls, []⟩ }

/-- The last line is written: a commit's deposit is closed, and the response is complete (R54, R66). -/
def State.endWrites (s : State) (w : Write) (report : List Byte) : State :=
  ({ s with job := none, deposit := match w.kind with | .media => none | .fill => s.deposit }).answer .media .ok report

/-- The write events of the next `n` lines still to be written, in ascending order, each finding what stands at its own write (R45). -/
def State.advance (n : Nat) (s : State) : State :=
  match s.job with
  | none => s
  | some j =>
    let t := s.writeLines j.write (j.left.take n)
    let report := j.report ++ (s.reportLines j.write (j.left.take n)).flatMap (WriteReport.bytes j.write)
    if j.left.length ≤ n then t.endWrites j.write report
    else { t with job := some { j with left := j.left.drop n, report := report } }

/-- The lines still to be written, all of them: a link operation's result is ready before the link can bring another request (R26). -/
def State.finishWrites (s : State) : State :=
  match s.job with
  | none => s
  | some j => s.advance j.left.length

/-- A write of this kind has lines still to be written. -/
def State.goesOn (s : State) (k : WriteKind) : Bool :=
  match s.job with
  | none => false
  | some j => j.write.kind == k

/-- A frame of the Media Link: the lines of a commit or fill before it are all written by then (R26). -/
def State.takeMedia (s : State) (f : State → State) : Host.Outcome State Fault Refusal :=
  s.take fun s => s.hear .media fun s => f s.finishWrites

/-- A frame of a link. -/
def State.takeOn (s : State) (k : Link) (f : State → State) : Host.Outcome State Fault Refusal :=
  match k with
  | .control => s.takeControl f
  | .media => s.takeMedia f

end Sys2Proof.Machine
end

