-- ==== Sys2Proof/Machine/Deposits.lean ====
section
/-! DEFINITION. The Deposit Mixer's requests: OPEN_DEPOSIT (R48, R49), DEPOSIT_DATA (R50 to R52), COMMIT_DEPOSIT (R53, R54),
ABANDON_DEPOSIT (R55), FILL_CELLS (R66, R67), LOAD_FILL_PATTERN (R69). -/

namespace Sys2Proof.Machine

/-- The mix named by a control byte's ADD bit, which is bit 4 in both requests (R175). -/
def mixOf (control : Byte) : Mix := if control.getLsbD 4 then .add else .replace

/-! ### OPEN DEPOSIT -/

/-- The record OPEN DEPOSIT binds (R48): cells−1 in bits 7..5 of control, ADD in bit 4, invert in bit 3, MARK in bit 2. -/
def Deposit.opened (mask : Byte) (source : Fin 4) (time : Word32) (control gain : Byte) : Deposit :=
  { mask := maskOf mask, source := source, time := time, cells := (control.extractLsb' 5 3).toNat + 1, mix := mixOf control,
    invert := control.getLsbD 3, gain := gainOf gain, mark := control.getLsbD 2, samples := [], broken := false }

/-- The deposit buffer replaced. -/
def State.setDeposit (s : State) (d : Option Deposit) : State := { s with deposit := d }

/-- OPEN_DEPOSIT (R48, R49): an open deposit is replaced, and SEQUENCE set. -/
def execOpenDeposit (mask source : Byte) (time : Word32) (control gain : Byte) (s : State) : Host.Outcome State Fault Refusal :=
  s.takeMedia fun s =>
    if maskOk mask then
      match index4 source with
      | none => s.refuse .media .range
      | some m =>
        let s' := if s.deposit.isSome then s.setSequence else s
        (s'.setDeposit (some (Deposit.opened mask m time control gain))).answer .media .ok [flag s.deposit.isSome]
    else s.refuse .media .range

/-! ### DEPOSIT DATA -/

/-- Samples the deposit takes in all: 40·n. -/
def Deposit.room (d : Deposit) : Nat := 40 * d.cells

/-- An open deposit is marked broken (R51, R52). -/
def State.breakDeposit (s : State) : State := s.setDeposit (s.deposit.map fun d => { d with broken := true })

/-- The buffer after samples arrive at an unbroken deposit: those that fit are appended, and an overflow breaks it (R50, R51). -/
def Deposit.append (d : Deposit) (samples : List Sample) : Deposit :=
  { d with
    samples := d.samples ++ samples.take (d.room - d.samples.length)
    broken := decide (d.room < d.samples.length + samples.length) }

/-- The samples of a taken DEPOSIT DATA at the buffer (R50, R51). -/
def State.receiveData (s : State) (samples : List Sample) : State :=
  match s.deposit with
  | none => s.setSequence.answer .media .sequence (nat2 0)
  | some d =>
    if d.broken then s.setSequence.answer .media .sequence (nat2 d.samples.length)
    else
      let d' := d.append samples
      let s' := s.setDeposit (some d')
      if d'.broken then s'.setSequence.answer .media .sequence (nat2 d'.samples.length)
      else s'.answer .media .ok (nat2 d'.samples.length)

/-- DEPOSIT_DATA (R50 to R52). A list shorter than an accepted count is a truncated frame. -/
def execDepositData (count : Word16) (samples : List Sample) (s : State) : Host.Outcome State Fault Refusal :=
  s.takeMedia fun s =>
    if !dataCountOk count then s.refuse .media .range
    else if samples.length < count.toNat then (s.breakDeposit).truncated .media
    else s.receiveData (samples.take count.toNat)

/-! ### COMMIT DEPOSIT and ABANDON DEPOSIT -/

/-- Cell i of a deposit, inverted and scaled (R47, R58, R59). -/
def Deposit.cell (d : Deposit) (i : Nat) : List Sample := transform d.invert d.gain ((d.samples.drop (40 * i)).take 40)

/-- The write a deposit makes on each line of its mask (R54). -/
def Deposit.write (d : Deposit) : Write :=
  ⟨.media, d.source, d.time, d.mix, d.mark, (List.range d.cells).map fun i => (i, d.cell i)⟩

/-- What a COMMIT DEPOSIT does when it is taken (R53): it is refused, the deposit closed, or its writes begin. -/
def State.beginCommit (s : State) : State :=
  match s.deposit with
  | none => s.setSequence.refuse .media .sequence
  | some d =>
    if d.broken then (s.setDeposit none).setSequence.refuse .media .sequence
    else if d.samples.length < d.room then (s.setDeposit none).refuse .media .short
    else s.beginWrites d.write (maskLines d.mask)

/-- COMMIT_DEPOSIT (R53, R54): the request, or the next write events of the one under way. -/
def execCommitDeposit (s : State) (writes : Nat := 4) : Host.Outcome State Fault Refusal :=
  if s.goesOn .media then s.take (State.advance writes) else s.takeMedia fun s => s.beginCommit.advance writes

/-- ABANDON_DEPOSIT (R55). -/
def execAbandonDeposit (s : State) : Host.Outcome State Fault Refusal :=
  s.takeMedia fun s =>
    if s.deposit.isSome then (s.setDeposit none).answer .media .ok [] else s.refuse .media .none

/-! ### Fills -/

/-- The set bits of the cell mask, bits 3..0 of a fill's control byte, ascending (R41). -/
def fillBits (control : Byte) : List Nat := (List.range 4).filter fun i => control.getLsbD i

/-- The write a fill makes: the fill pattern through the gain step, not inverted, in each cell of the mask (R67). MARK is bit 5. -/
def fillWrite (pattern : List Sample) (source : Fin 4) (time : Word32) (control gain : Byte) : Write :=
  ⟨.fill, source, time, mixOf control, control.getLsbD 5,
    (fillBits control).map fun i => (i, transform false (gainOf gain) pattern)⟩

/-- What a FILL CELLS does when it is taken (R66): it is refused, or its writes begin. -/
def State.beginFill (s : State) (mask source : Byte) (time : Word32) (control gain : Byte) : State :=
  if maskOk mask then
    match index4 source with
    | none => s.refuse .media .range
    | some m =>
      if fillBits control = [] then s.refuse .media .range
      else s.beginWrites (fillWrite s.fillPattern m time control gain) (maskLines (maskOf mask))
  else s.refuse .media .range

/-- FILL_CELLS (R66, R67): the request, or the next write events of the one under way. -/
def execFillCells (mask source : Byte) (time : Word32) (control gain : Byte) (s : State) (writes : Nat := 4) :
    Host.Outcome State Fault Refusal :=
  if s.goesOn .fill then s.take (State.advance writes)
  else s.takeMedia fun s => (s.beginFill mask source time control gain).advance writes

/-- LOAD_FILL_PATTERN (R69). Any count but 40 is refused at the count; a list shorter than 40 is a truncated frame. -/
def execLoadFillPattern (count : Word16) (samples : List Sample) (s : State) : Host.Outcome State Fault Refusal :=
  s.takeMedia fun s =>
    if !patternCountOk count then s.refuse .media .range
    else if samples.length < 40 then s.truncated .media
    else ({ s with fillPattern := samples.take 40 }).answer .media .ok []

end Sys2Proof.Machine
end

