-- ==== Sys2Proof/Machine/EventQueue.lean ====
section
/-! DEFINITION. The Event Queue's request READ_EVENTS (R180) with the layout of its records (R178), and CIRQ_PULSE (R181). -/

namespace Sys2Proof.Machine

/-! ### Codes of kinds and causes (R178) -/

/-- Direction byte. -/
def directionByte : Direction → Byte
  | .localEnd => 0
  | .remoteEnd => 1

/-- Cause byte of MODE CHANGED. -/
def ModeCause.byte : ModeCause → Byte
  | .request => 0
  | .auto => 1

/-- Cause byte of RING DONE. -/
def RingCause.byte : RingCause → Byte
  | .count => 0
  | .stop => 1

/-- Cause byte of CID ABORTED. -/
def AbortCause.byte : AbortCause → Byte
  | .offHook => 0
  | .onHook => 1
  | .stop => 2
  | .fax => 3

/-- Cause byte of SIGNAL CANCELLED. -/
def CancelCause.byte : CancelCause → Byte
  | .replaced => 0
  | .stop => 1
  | .digit => 2
  | .onHook => 3
  | .fax => 4

/-- Code byte of a kind (R178). -/
def Event.code : Event → Byte
  | .offHook _ => 0x01
  | .onHook => 0x02
  | .flash => 0x03
  | .pulseDigit _ => 0x04
  | .dialError _ => 0x05
  | .digit _ => 0x10
  | .digitEnd _ _ => 0x11
  | .faxCalling => 0x12
  | .faxAnswer _ => 0x13
  | .modeChanged _ _ => 0x20
  | .ringDone _ => 0x30
  | .cidSent => 0x31
  | .cidNoAck => 0x32
  | .cidAborted _ => 0x33
  | .signalDone _ => 0x40
  | .signalCancelled _ _ => 0x41
  | .overflow _ => 0x7F

/-- The four detail bytes d0..d3 (R178). -/
def Event.detail : Event → List Byte
  | .offHook trip => [flag trip, 0, 0, 0]
  | .onHook => [0, 0, 0, 0]
  | .flash => [0, 0, 0, 0]
  | .pulseDigit n => [byte n, 0, 0, 0]
  | .dialError n => [byte n, 0, 0, 0]
  | .digit d => [digitByte d, 0, 0, 0]
  | .digitEnd d n => digitByte d :: (nat2 n ++ [0])
  | .faxCalling => [0, 0, 0, 0]
  | .faxAnswer r => [directionByte r, 0, 0, 0]
  | .modeChanged m c => [m.byte, c.byte, 0, 0]
  | .ringDone c => [c.byte, 0, 0, 0]
  | .cidSent => [0, 0, 0, 0]
  | .cidNoAck => [0, 0, 0, 0]
  | .cidAborted c => [c.byte, 0, 0, 0]
  | .signalDone v => [v.byte, 0, 0, 0]
  | .signalCancelled v c => [v.byte, c.byte, 0, 0]
  | .overflow n => nat2 n ++ [0, 0]

/-- Line byte of a record, 0xFF when the line is absent (R178). -/
def EventRecord.lineByte (r : EventRecord) : Byte :=
  match r.line with
  | some l => byte l.val
  | none => 0xFF

/-- The ten bytes of a record (R178). -/
def EventRecord.bytes (r : EventRecord) : List Byte := [r.event.code, r.lineByte] ++ bytes4 r.stamp ++ r.event.detail

/-! ### READ EVENTS -/

/-- READ_EVENTS (R180): the r oldest records, removed in the same event. -/
def execReadEvents (maximum : Byte) (s : State) : Host.Outcome State Fault Refusal :=
  s.takeControl fun s =>
    if 1 ≤ maximum.toNat ∧ maximum.toNat ≤ 16 then
      let r := min maximum.toNat s.events.length
      ({ s with events := s.events.drop r }).answer .control .ok (byte r :: (s.events.take r).flatMap EventRecord.bytes)
    else s.refuse .control .range

/-! ### CIRQ -/

/-- CIRQ_PULSE (R181): `periods` REFCLK periods of the CIRQ output. -/
def execCirqPulse (periods : Nat) (s : State) : Host.Outcome State Fault Refusal :=
  s.take fun s => s.setLink .control { s.cLink with irq := s.cLink.irq.ticks periods }

end Sys2Proof.Machine
end

