-- ==== Sys2Proof/Config.lean ====
section
/-! DEFINITION. What the manual leaves to the implementation. The one thing it does not fix is the method by which components,
frequencies and energies are measured from the 40 samples of a cell (R158); the tests applied to what is measured are fixed
and stand in Machine/Detector.lean, and so does the level of a cell, which R158 defines by its power. -/

namespace Sys2Proof

/-- One sinusoidal component measured in a cell (R158). -/
structure Component where
  /-- Frequency in thousandths of a hertz. -/
  freq : Nat
  /-- Peak of the sinusoid in thousandths of a sample step: a sine of peak A stands at 3 + 20·log10(A/32767) dBm0. -/
  peak : Nat
  /-- Energy, on a linear scale common to the cell. -/
  energy : Nat
deriving DecidableEq, Repr, Inhabited

/-- What is measured of a cell's 40 samples (R158). -/
structure CellMeasure where
  components : List Component
  /-- Total energy, on the scale of the components. -/
  energy : Nat
deriving DecidableEq, Repr, Inhabited

/-- The measuring method: a fixed function of the 40 samples alone, and nothing more is known of it (R158: "The method by
which components, frequencies and energies are measured from 40 samples is not fixed here"). A free value, log entry 10.
SAFE: no claim can lean on what it measures. -/
opaque Config.measure : List Sample → CellMeasure

end Sys2Proof
end

