-- ==== Sys2Proof/Machine/Detector.lean ====
section
/-! DEFINITION. The Tone Detector: cell classification (R158), the digit machine (R160 to R163), the fax-tone machines (R164, R165),
auto-fax (R166), and the meanings of TONE_DETECTOR_STEP, DIGIT, DIGIT_END, FAX_CALLING. -/

namespace Sys2Proof.Machine

/-! ### Classification (R158) -/

/-- Row frequencies in hertz, with the digit codes of their four columns (R158). -/
def rows : List (Nat × List Digit) :=
  [(697, [1, 2, 3, 12]), (770, [4, 5, 6, 13]), (852, [7, 8, 9, 14]), (941, [10, 0, 11, 15])]

/-- Column frequencies in hertz (R158). -/
def columns : List Nat := [1209, 1336, 1477, 1633]

/-- A component lies within ±1.8 % of a nominal frequency in hertz (its frequency is in thousandths of a hertz). -/
def nearNominal (nominal : Nat) (c : Component) : Bool :=
  decide (1000 * nominal ≤ c.freq + 18 * nominal) && decide (c.freq ≤ 1000 * nominal + 18 * nominal)

/-- A component lies within `width` hertz of a nominal frequency in hertz. -/
def withinHertz (nominal width : Nat) (c : Component) : Bool :=
  decide (1000 * nominal ≤ c.freq + 1000 * width) && decide (c.freq ≤ 1000 * nominal + 1000 * width)

/-- Energy `other` is at least 15 dB below energy `e`: other ≤ e / 10^1.5, both squared to stay exact. -/
def below15 (other e : Nat) : Bool := decide (1000 * other ^ 2 ≤ e ^ 2)

/-- A component stands at or above −d dBm0, a sine of peak 32767 standing at +3 dBm0: (peak/32767)^20 ≥ 10^−(d + 3), kept exact (R158). -/
def peakReaches (d : Nat) (c : Component) : Bool := decide (32767000 ^ 20 ≤ c.peak ^ 20 * 10 ^ (d + 3))

/-- The first component is at most 8 dB above the second: (a/b)^20 ≤ 10^8 (R158). -/
def peaksWithin8 (a b : Component) : Bool := decide (a.peak ^ 20 ≤ b.peak ^ 20 * 10 ^ 8)

/-- The sum of the squares of a cell's samples, 40 times its power. -/
def sumOfSquares (cell : List Sample) : Nat := (cell.map fun x => (magnitude x) ^ 2).sum

/-- The level of the cell is at or above −45 dBm0. Its level is its power over the 40 samples on the scale on which a sine of peak 32767, whose
power is 32767²/2, stands at +3 dBm0: (sum of squares / (20·32767²))^5 ≥ 10^−24, kept exact (R158). -/
def loudEnough (cell : List Sample) : Bool := decide ((20 * 32767 ^ 2) ^ 5 ≤ sumOfSquares cell ^ 5 * 10 ^ 24)

/-- The components that lie in a group of nominal frequencies. -/
def inGroup (group : List Nat) (cs : List Component) : List Component :=
  cs.filter fun c => group.any fun f => nearNominal f c

/-- The digit of a row component and a column component. -/
def digitOf (r c : Component) : Option Digit :=
  match rows.find? (fun x => nearNominal x.1 r), columns.findIdx? (fun f => nearNominal f c) with
  | some x, some j => x.2[j]?
  | _, _ => none

/-- First test: a DTMF digit (R158). -/
def measuredDigit (m : CellMeasure) : Option Digit :=
  match inGroup (rows.map Prod.fst) m.components, inGroup columns m.components with
  | [r], [c] =>
    if peakReaches 30 r ∧ peakReaches 30 c ∧ peaksWithin8 r c ∧ peaksWithin8 c r
        ∧ below15 (m.energy - (r.energy + c.energy)) (r.energy + c.energy) then digitOf r c
    else none
  | _, _ => none

/-- A single tone: one component whose energy is at least 15 dB above all the other energy of the cell; here within `width` hertz of
`nominal` and at or above −40 dBm0 (R158). A phase reversal within the cell fails nothing: the tests ask only for frequency, level and energy. -/
def singleTone (nominal width : Nat) (m : CellMeasure) : Bool :=
  m.components.any fun c =>
    below15 (m.energy - c.energy) c.energy && withinHertz nominal width c && peakReaches 40 c

/-- The tests of R158 in their order, at their nominal bounds, on what was measured of the cell and on the cell's own level. -/
def measuredClass (m : CellMeasure) (cell : List Sample) : CellClass :=
  match measuredDigit m with
  | some d => .dtmf d
  | none =>
    if singleTone 1100 38 m then .faxCalling
    else if singleTone 2100 21 m then .faxAnswer
    else if loudEnough cell then .other
    else .none

/-- The class of a cell: a fixed function of its 40 samples alone; a cell of 40 zeros is NONE (R158). -/
def classify (cell : List Sample) : CellClass :=
  if cell = silence then .none else measuredClass (Config.measure cell) cell

/-! ### The digit machine (R160 to R163) -/

/-- The run after a cell (R160): the run digit and run length. -/
def DigitMachine.count (m : DigitMachine) : CellClass → DigitMachine
  | .dtmf d =>
    if m.runDigit = some d then { m with runLength := m.runLength + 1 } else { m with runDigit := some d, runLength := 1 }
  | _ => { m with runDigit := none, runLength := 0 }

/-- The foreground is an off-hook CID in phase AWAIT-ACK (R162). -/
def Line.awaitsAck (L : Line) : Bool :=
  match L.foreground with
  | some c =>
    match c.kind with
    | .offHookCid r => r.phase == .awaitAck
    | _ => false
  | none => false

/-- The off-hook CID takes the acknowledgement: phase SETTLE with 0 cells rendered (R139). -/
def Context.acknowledge (c : Context) : Context :=
  match c.kind with
  | .offHookCid r => { c with kind := .offHookCid { r with phase := .settle, cells := 0 } }
  | _ => c

/-- The machine replaced. -/
def Line.setDigits (L : Line) (m : DigitMachine) : Line := { L with detector := { L.detector with digits := m } }

/-- The digit `d` is qualified (R160) and handed on (R162): A or D (codes 12, 15) in AWAIT-ACK is taken by the CID; any other is
reported with DIGIT and cuts a cut-on-digit background. -/
def Line.qualifyDigit (programs : List ProgramRecord) (L : Line) (d : Digit) : LineStep :=
  if (d = 12 ∨ d = 15) ∧ L.awaitsAck then
    ({ L with foreground := L.foreground.map Context.acknowledge }.setDigits ⟨.held d 8 0 true, none, 0⟩, [])
  else
    let a := (L.setDigits ⟨.held d 8 0 false, none, 0⟩).cutBackground programs
    (a.1, .digit d :: a.2)

/-- The digit machine takes a captured cell in SEEKING (R160). -/
def Line.seekDigit (programs : List ProgramRecord) (L : Line) (c : CellClass) : LineStep :=
  let m := L.detector.digits.count c
  match c with
  | .dtmf d => if m.runLength = 8 then L.qualifyDigit programs d else (L.setDigits m, [])
  | _ => (L.setDigits m, [])

/-- The digit machine takes a captured cell in HELD (R161). -/
def Line.holdDigit (L : Line) (d : Digit) (duration release : Nat) (taken : Bool) (c : CellClass) : LineStep :=
  if c = .dtmf d then
    (L.setDigits ⟨.held d (countBy 65535 (1 + release) duration) 0 taken, none, 0⟩, [])
  else
    let m := L.detector.digits.count c
    if release + 1 = 3 then
      (L.setDigits { m with phase := .seeking }, if taken then [] else [.digitEnd d duration])
    else (L.setDigits { m with phase := .held d duration (release + 1) taken }, [])

/-- The digit machine's step (R160, R161). -/
def Line.stepDigits (programs : List ProgramRecord) (L : Line) (c : CellClass) : LineStep :=
  match L.detector.digits.phase with
  | .seeking => L.seekDigit programs c
  | .held d duration release taken => L.holdDigit d duration release taken c

/-! ### The fax-tone machines (R164 to R166) -/

/-- A run counter: raised by a cell of its class and held at `top`, set to 0 by any other (R164, R165). -/
def runCount (top : Nat) (hit : Bool) (n : Nat) : Nat := if hit then countUp top n else 0

/-- The cell raises the counter to `top` (R164, R165). -/
def completes (top : Nat) (hit : Bool) (n : Nat) : Bool := hit && n + 1 == top

/-- The auto-fax action (R166): with auto-fax on, in VOICE, and no pending mode, the pending mode becomes FAX with cause AUTO. -/
def Line.autoFaxAction (L : Line) : Line :=
  if L.autoFax ∧ L.mode = .voice ∧ L.pendingMode = none then { L with pendingMode := some ⟨.fax, .auto⟩ } else L

/-- The fax-calling machine takes a captured cell (R164). -/
def Line.stepCalling (L : Line) (c : CellClass) : LineStep :=
  let hit := c == .faxCalling
  let n := L.detector.faxCalling
  let L' := { L with detector := { L.detector with faxCalling := runCount 100 hit n } }
  if completes 100 hit n then (L'.autoFaxAction, [.faxCalling]) else (L', [])

/-- The capture fax-answer machine takes a captured cell (R165). -/
def Line.stepCaptureAnswer (L : Line) (c : CellClass) : LineStep :=
  let hit := c == .faxAnswer
  let n := L.detector.captureAnswer
  let L' := { L with detector := { L.detector with captureAnswer := runCount 60 hit n } }
  if completes 60 hit n then (L'.autoFaxAction, [.faxAnswer .localEnd]) else (L', [])

/-- The playout fax-answer machine takes a played cell (R165). -/
def Line.stepPlayoutAnswer (L : Line) (c : CellClass) : LineStep :=
  let hit := c == .faxAnswer
  let n := L.detector.playoutAnswer
  let L' := { L with detector := { L.detector with playoutAnswer := runCount 60 hit n } }
  if completes 60 hit n then (L'.autoFaxAction, [.faxAnswer .remoteEnd]) else (L', [])

/-- The step of the capture machines for a captured cell of class `c`: in VOICE only (R159). -/
def Line.stepDetector (programs : List ProgramRecord) (L : Line) (c : CellClass) : LineStep :=
  match L.mode with
  | .fax => (L, [])
  | .voice =>
    let a := L.stepDigits programs c
    let b := a.1.stepCalling c
    let d := b.1.stepCaptureAnswer c
    (d.1, a.2 ++ b.2 ++ d.2)

/-- The detector machines set to their reset state by a load that applies a mode change; a digit held and not taken queues DIGIT END
(R163). -/
def Line.resetDetector (L : Line) : LineStep :=
  ({ L with detector := .reset },
    match L.detector.digits.phase with
    | .held d duration _ false => [.digitEnd d duration]
    | _ => [])

/-! ### The detector step as an event -/

/-- The capture half closed at the last boundary: the one that is not filling (R11). -/
def Line.closedHalf (L : Line) : CaptureHalf :=
  match L.filling with
  | .first => L.capSecond
  | .second => L.capFirst

/-- The detector step of a line's last boundary is still to be taken. -/
def Line.detectorDue (L : Line) : Bool := L.enabled && L.started && L.due.detector

/-- The line's step for one boundary (R159): stamped with the global cell just ended, in the mode held when it is taken. -/
def Line.takeDetector (programs : List ProgramRecord) (L : Line) : LineStep :=
  let a := L.stepDetector programs L.closedHalf.cls
  ({ a.1 with due := { a.1.due with detector := false } }, a.2)

/-- The detector step, if it is due. It sets no signalling mark (R94); for a background that it removes after a load taken since the boundary,
or that another work of the same boundary made ACTIVE, this is a DESIGN CHOICE, log entry 16. -/
def State.detectorStep (s : State) (l : Fin 4) : State :=
  if (s.line l).detectorDue then s.commitLine l s.endedCell ((s.line l).takeDetector s.programs) else s

/-- The step now due qualifies a digit (R160). -/
def Line.willQualify (L : Line) : Bool :=
  L.mode == .voice && L.detector.digits.phase == .seeking &&
    (match L.closedHalf.cls with
      | .dtmf d => L.detector.digits.runDigit == some d && L.detector.digits.runLength == 7
      | _ => false)

/-- The step now due releases the held digit (R161). -/
def Line.willRelease (L : Line) : Bool :=
  L.mode == .voice &&
    (match L.detector.digits.phase with
      | .held d _ 2 _ => L.closedHalf.cls != .dtmf d
      | _ => false)

/-- The step now due completes a fax-calling run (R164). -/
def Line.willCall (L : Line) : Bool :=
  L.mode == .voice && completes 100 (L.closedHalf.cls == .faxCalling) L.detector.faxCalling

/-- The step now due completes a capture fax-answer run (R165). -/
def Line.willAnswer (L : Line) : Bool :=
  L.mode == .voice && completes 60 (L.closedHalf.cls == .faxAnswer) L.detector.captureAnswer

/-- TONE_DETECTOR_STEP (R159). -/
def execToneDetectorStep (l : Fin 4) (s : State) : Host.Outcome State Fault Refusal :=
  s.take fun s => s.detectorStep l

/-- DIGIT (R160, R162): the detector step that qualifies a digit. Where the step due does not, the event does not occur. -/
def execDigit (l : Fin 4) (s : State) : Host.Outcome State Fault Refusal :=
  s.take fun s => if (s.line l).willQualify then s.detectorStep l else s

/-- DIGIT_END (R161): the detector step that releases the held digit. -/
def execDigitEnd (l : Fin 4) (s : State) : Host.Outcome State Fault Refusal :=
  s.take fun s => if (s.line l).willRelease then s.detectorStep l else s

/-- FAX_CALLING (R164): the detector step that completes a fax-calling run. -/
def execFaxCalling (l : Fin 4) (s : State) : Host.Outcome State Fault Refusal :=
  s.take fun s => if (s.line l).willCall then s.detectorStep l else s

end Sys2Proof.Machine
end

