-- ==== Sys2Proof/Machine/Lines.lean ====
section
/-! DEFINITION. The Line Controller and the Partition Table: CONFIGURE_LINE (R16 to R19), ENABLE_LINE (R7, R8), DISABLE_LINE (R12 to
R14), SET_MODE (R168), SET_SUPERVISION (R167). -/

namespace Sys2Proof.Machine

/-! ### The partition table -/

/-- The ring lies within cells 0..1023 (R17). -/
def RingEntry.fits (e : RingEntry) : Bool := decide (e.base + e.len - 1 ≤ 1023)

/-- Two rings share no cell (R17). -/
def RingEntry.disjoint (a b : RingEntry) : Bool := decide (a.base + a.len ≤ b.base) || decide (b.base + b.len ≤ a.base)

/-- The ring shares no cell with an entry, which may be absent. -/
def RingEntry.clearOf (e : RingEntry) : Option RingEntry → Bool
  | some r => e.disjoint r
  | none => true

/-- The ring shares no cell with any present entry of a line other than `l` (R17). -/
def State.clearOfOthers (s : State) (l : Fin 4) (e : RingEntry) : Bool :=
  four.all fun k => k == l || (e.clearOf (s.line k).playRing && e.clearOf (s.line k).capRing)

/-- The checks of CONFIGURE LINE after the line number, in order (R17). -/
def configureChecks (s : State) (l : Fin 4) (p c : RingEntry) : List (Bool × Result) :=
  let removed := p.len == 0 && c.len == 0
  [ (!(s.line l).enabled, .state),
    (removed || (decide (8 ≤ p.len) && decide (p.len ≤ 256) && decide (4 ≤ c.len) && decide (c.len ≤ 64)), .range),
    (removed || (p.fits && c.fits), .range),
    (removed || p.disjoint c, .range),
    (removed || (s.clearOfOthers l p && s.clearOfOthers l c), .range) ]

/-- Both entries of a line replaced, or made absent when both lengths are 0 (R17, R18). -/
def Line.withRings (L : Line) (p c : RingEntry) : Line :=
  if p.len = 0 ∧ c.len = 0 then { L with playRing := none, capRing := none }
  else { L with playRing := some p, capRing := some c }

/-- CONFIGURE_LINE (R17). -/
def execConfigureLine (line : Byte) (playBase playLen capBase : Word16) (capLen : Byte) (s : State) :
    Host.Outcome State Fault Refusal :=
  s.takeControl fun s => s.withLine .control line fun l =>
    let p : RingEntry := ⟨playBase.toNat, playLen.toNat⟩
    let c : RingEntry := ⟨capBase.toNat, capLen.toNat⟩
    s.checked .control (configureChecks s l p c)
      ((s.setLine l ((s.line l).withRings p c)).answer .control .ok [])

/-! ### Enable and disable -/

/-- The timeline set up at an enable (R8), with the clamping of R19; the start boundary is still to come. -/
def Line.setUp (L : Line) : Line :=
  { L with
    enabled := true, started := false, horizon := 0, hs := 0, anchors := Four.all .unanchored, playout := .idle, run := 0,
    repeatBuffer := none, pendingSlip := 0, patience := 0, window := .reset,
    playFirst := ⟨silence, 4294967216, 0⟩, playSecond := ⟨silence, 4294967256, 0⟩, playing := .first, sent := 0,
    capFirst := .reset, capSecond := .reset, filling := .first, capWrite := 0, capRead := 0, unread := 0,
    config := { L.config with
      voiceDepth := clampNat 1 (L.lp - 1) L.config.voiceDepth
      faxDepth := clampNat 1 (L.lp - 1) L.config.faxDepth }
    capThreshold := clampNat 1 L.lc L.capThreshold
    mark := false, closedMark := false, hook := .reset, detector := .reset, due := .none }

/-- ENABLE_LINE (R7, R8): for an ENABLED line OK and no change. -/
def execEnableLine (line : Byte) (s : State) : Host.Outcome State Fault Refusal :=
  s.takeControl fun s => s.withLine .control line fun l =>
    if (s.line l).enabled then s.answer .control .ok []
    else
      s.checked .control
        [ (s.timebase == .running, .state), ((s.line l).playRing.isSome && (s.line l).capRing.isSome, .state) ]
        (((s.setStore (s.store.emptyRing (s.line l))).setLine l (s.line l).setUp).answer .control .ok [])

/-- What a disable leaves of a line (R13, R14): its entries, its playout configuration, capture threshold, auto-fax, CID attenuation,
the periods and burst count of its ring record, and the level of its HOOK pin; all else as after a device reset. -/
def Line.shutDown (L : Line) : Line :=
  { Line.reset with
    playRing := L.playRing, capRing := L.capRing, config := L.config, capThreshold := L.capThreshold, autoFax := L.autoFax,
    cidAttenuation := L.cidAttenuation, hookPin := L.hookPin,
    ring := { RingRecord.reset with onPeriod := L.ring.onPeriod, offPeriod := L.ring.offPeriod, bursts := L.ring.bursts } }

/-- DISABLE_LINE (R12, R13): for a DISABLED line OK and no change. No event is queued. -/
def execDisableLine (line : Byte) (s : State) : Host.Outcome State Fault Refusal :=
  s.takeControl fun s => s.withLine .control line fun l =>
    if (s.line l).enabled then
      ((s.setStore (s.store.emptyRing (s.line l))).setLine l (s.line l).shutDown).answer .control .ok []
    else s.answer .control .ok []

/-! ### Mode and supervision -/

/-- The pending mode after SET MODE (R168). -/
def Line.requestMode (L : Line) (m : LineMode) : Line :=
  { L with pendingMode := if m = L.mode then none else some ⟨m, .request⟩ }

/-- SET_MODE (R168). -/
def execSetMode (line mode : Byte) (s : State) : Host.Outcome State Fault Refusal :=
  s.takeControl fun s => s.withLine .control line fun l =>
    match modeOf mode with
    | none => s.refuse .control .range
    | some m =>
      if (s.line l).enabled then
        (s.setLine l ((s.line l).requestMode m)).answer .control .ok
          [((s.line l).requestMode m).mode.byte, pendingByte ((s.line l).requestMode m).pendingMode]
      else s.refuse .control .state

/-- Auto-fax and CID attenuation stored, the attenuation at most 127 (R167). -/
def Line.supervise (L : Line) (control attenuation : Byte) : Line :=
  { L with autoFax := control.getLsbD 0, cidAttenuation := min attenuation.toNat 127 }

/-- SET_SUPERVISION (R167), in any line state. -/
def execSetSupervision (line control attenuation : Byte) (s : State) : Host.Outcome State Fault Refusal :=
  s.takeControl fun s => s.withLine .control line fun l =>
    (s.setLine l ((s.line l).supervise control attenuation)).answer .control .ok
      [flag ((s.line l).supervise control attenuation).autoFax, byte ((s.line l).supervise control attenuation).cidAttenuation]

end Sys2Proof.Machine
end

