-- ==== Sys2Proof/Machine/PlayoutConfig.lean ====
section
/-! DEFINITION. The Playout Engine's requests: SET_PLAYOUT (R85, R86), REALIGN and REALIGN_WITH_CLEAR (R87, R88),
READ_AND_CLEAR_STATISTICS (R89, R90). -/

namespace Sys2Proof.Machine

/-! ### SET PLAYOUT -/

/-- The greatest depth of the line's present playout entry: Lp − 1, or 255 with no entry (R19, R85). -/
def Line.depthTop (L : Line) : Nat :=
  match L.playRing with
  | some e => e.len - 1
  | none => 255

/-- The greatest capture threshold of the line's present capture entry: Lc, or 64 with no entry (R19, R85). -/
def Line.thresholdTop (L : Line) : Nat :=
  match L.capRing with
  | some e => e.len
  | none => 64

/-- A lead source above 3 is stored as 3 (R175). -/
def leadOf (b : Byte) : Fin 4 := (index4 b).getD 3

/-- The values as SET PLAYOUT stores them: each clamped to its range, the low water mark before the high (R85). -/
def Line.clampPlayout (L : Line) (v : RawPlayout) : PlayoutConfig :=
  { voiceDepth := clampNat 1 L.depthTop v.voiceDepth.toNat
    faxDepth := clampNat 1 L.depthTop v.faxDepth.toNat
    starve := clampNat 2 255 v.starve.toNat
    patience := v.patience.toNat
    lowWater := clampNat 0 10200 v.lowWater.toNat
    highWater := clampNat (clampNat 0 10200 v.lowWater.toNat) 10200 v.highWater.toNat
    window := clampNat 10 2000 v.window.toNat
    quiet := clampNat 0 32767 v.quiet.toNat
    fillGain := gainOf v.fillGain
    autoSlip := v.control.getLsbD 0
    lead := leadOf v.lead }

/-- The line with its playout configuration and capture threshold replaced (R85). -/
def Line.setPlayout (L : Line) (v : RawPlayout) : Line :=
  { L with config := L.clampPlayout v, capThreshold := clampNat 1 L.thresholdTop v.capture.toNat }

/-- The sixteen bytes of the stored values (R175). -/
def Line.playoutBytes (L : Line) : List Byte :=
  [byte L.config.voiceDepth, byte L.config.faxDepth, byte L.config.starve, byte L.config.patience]
    ++ nat2 L.config.lowWater ++ nat2 L.config.highWater ++ nat2 L.config.window ++ nat2 L.config.quiet
    ++ [gainByte L.config.fillGain, flag L.config.autoSlip, byte L.config.lead.val, byte L.capThreshold]

/-- SET_PLAYOUT (R85), in any line state. -/
def execSetPlayout (line : Byte) (values : RawPlayout) (s : State) : Host.Outcome State Fault Refusal :=
  s.takeMedia fun s => s.withLine .media line fun l =>
    (s.setLine l ((s.line l).setPlayout values)).answer .media .ok ((s.line l).setPlayout values).playoutBytes

/-! ### REALIGN -/

/-- The slip request added to the pending slip, both clamped to −40..+40 (R87). -/
def Line.addSlip (L : Line) (slip : Byte) : Line := { L with pendingSlip := clampSlip (L.pendingSlip + slipOf slip) }

/-- The clearing of REALIGN with CLEAR on the line's record (R88); its ring is emptied in the same event. -/
def Line.clear (L : Line) : Line :=
  { L with anchors := Four.all .unanchored, run := 0, repeatBuffer := none, playout := .idle }

/-- A REALIGN of a line, with or without CLEAR (R87, R88). -/
def State.realign (s : State) (line slip : Byte) (clear : Bool) : State :=
  s.withLine .media line fun l =>
    if (s.line l).enabled then
      let L := (s.line l).addSlip slip
      let s' := if clear then (s.setStore (s.store.emptyRing (s.line l))).setLine l L.clear else s.setLine l L
      s'.answer .media .ok [int1 L.pendingSlip]
    else s.refuse .media .state

/-- REALIGN (R87): bit 0 of the control byte is the CLEAR flag. -/
def execRealign (line slip control : Byte) (s : State) : Host.Outcome State Fault Refusal :=
  s.takeMedia fun s => s.realign line slip (control.getLsbD 0)

/-- REALIGN_WITH_CLEAR (R88): the REALIGN whose CLEAR flag is set, whatever else its control byte holds. -/
def execRealignWithClear (line slip _control : Byte) (s : State) : Host.Outcome State Fault Refusal :=
  s.takeMedia fun s => s.realign line slip true

/-! ### Statistics -/

/-- The eight counters, two bytes each, in the order of R89 (R175). -/
def Stats.bytes (t : Stats) : List Byte :=
  nat2 t.late ++ nat2 t.early ++ nat2 t.duplicate ++ nat2 t.concealed ++ nat2 t.suppressed ++ nat2 t.slipsPlus
    ++ nat2 t.slipsMinus ++ nat2 t.overruns

/-- READ_AND_CLEAR_STATISTICS (R90), in any line state. -/
def execReadAndClearStatistics (line : Byte) (s : State) : Host.Outcome State Fault Refusal :=
  s.takeMedia fun s => s.withLine .media line fun l =>
    (s.setLine l { s.line l with stats := .zero }).answer .media .ok (s.line l).stats.bytes

end Sys2Proof.Machine
end

