-- ==== Sys2Proof/Machine/Render.lean ====
section
/-! DEFINITION. Stage 3 of the load: what the ACTIVE context renders and how its program, or its caller identification, goes on
(R116, R117, R129 to R132, R138 to R140). -/

namespace Sys2Proof.Machine

/-! ### Program contexts (R116, R117) -/

/-- The segment at the segment index. -/
def segmentAt (p : ProgramRecord) (r : ProgramRun) : Segment := p.segments.getD r.segment ⟨none, 0⟩

/-- A tone table entry. -/
def toneAt (tones : List ToneEntry) (e : Nat) : ToneEntry := tones.getD e ⟨0, 0, 0⟩

/-- The run once its segment has begun (R116, 1): a tone segment copies its entry (R110), a SILENCE segment copies nothing. -/
def ProgramRun.begun (p : ProgramRecord) (tones : List ToneEntry) (r : ProgramRun) : ProgramRun :=
  if r.cellsLeft = 0 then
    let g := segmentAt p r
    { r with
      cellsLeft := g.duration
      tone := match g.tone with
        | some e => Tone.start (toneAt tones e)
        | none => r.tone }
  else r

/-- The 40 samples of the cell (R116, 2; R111). -/
def ProgramRun.cell (p : ProgramRecord) (r : ProgramRun) : List Sample :=
  match (segmentAt p r).tone with
  | some _ => r.tone.samples 40
  | none => silence

/-- The run after its cell's samples: the phases of a tone segment have advanced 40 times (R116, 2). -/
def ProgramRun.played (p : ProgramRecord) (r : ProgramRun) : ProgramRun :=
  match (segmentAt p r).tone with
  | some _ => { r with tone := r.tone.after 40 }
  | none => r

/-- The run after its cell is counted, or none when the program is complete (R116, 3 to 5). -/
def ProgramRun.counted (p : ProgramRecord) (r : ProgramRun) : Option ProgramRun :=
  if 1 < r.cellsLeft then some { r with cellsLeft := r.cellsLeft - 1 }
  else if r.segment + 1 < p.segments.length then some { r with cellsLeft := 0, segment := r.segment + 1 }
  else
    match r.repeats with
    | none => some { r with cellsLeft := 0, segment := 0 }
    | some n => if 1 < n then some { r with cellsLeft := 0, segment := 0, repeats := some (n - 1) } else none

/-- The run after one rendered cell, or none when the program is complete. -/
def ProgramRun.next (p : ProgramRecord) (tones : List ToneEntry) (r : ProgramRun) : Option ProgramRun :=
  ((r.begun p tones).played p).counted p

/-- The cell a program context renders at a load. -/
def ProgramRun.render (p : ProgramRecord) (tones : List ToneEntry) (r : ProgramRun) : List Sample :=
  (r.begun p tones).cell p

/-! ### Contexts in their places -/

/-- The line's ACTIVE context with its level; there is at most one (R112). -/
def Line.activeContext (L : Line) : Option (Level × Context) :=
  match L.foreground, L.background with
  | some c, b => if c.state = .active then some (.foreground, c) else (backgroundOf b)
  | none, b => backgroundOf b
where
  /-- The background, if it is ACTIVE. -/
  backgroundOf : Option Context → Option (Level × Context)
    | some c => if c.state = .active then some (.background, c) else none
    | none => none

/-- The context at a level replaced, every other field kept. -/
def Line.setContext (L : Line) (v : Level) (c : Context) : Line :=
  match v with
  | .background => { L with background := some c }
  | .foreground => { L with foreground := some c }

/-- The context at a level removed; a removed foreground makes a background ACTIVE (R117). -/
def Line.dropContext (L : Line) (v : Level) : Line :=
  match v with
  | .background => L.dropBackground
  | .foreground => L.dropForeground

/-! ### Caller identification (R132, R135, R138 to R140) -/

/-- The message of the line's CID buffer. -/
def Line.cidMessage (L : Line) : CidMessage := L.cid.message.getD ⟨0, [], 0⟩

/-- The FSK of a sending context: begun at its first cell with the attenuation held then (R129). -/
def Line.fskOf (L : Line) (f : Option Fsk) : Fsk := f.getD (Fsk.start L.cidAttenuation)

/-- An on-hook CID completes (R132, R135): CID SENT, the context removed, the buffer FREE, and the Ring Controller goes on. -/
def Line.onHookCidSent (L : Line) : LineStep :=
  let a := L.endOnHookCid.afterCid
  (a.1, .cidSent :: a.2)

/-- An off-hook CID goes on to its next phase, 0 cells rendered in it. -/
def AlertRun.enter (r : AlertRun) (p : AlertPhase) : AlertRun := { r with phase := p, cells := 0 }

/-- The alert tone: the entry copied at the first rendered cell of ALERT (R138). -/
def AlertRun.alertTone (tones : List ToneEntry) (r : AlertRun) : Tone := r.tone.getD (Tone.start (toneAt tones r.entry))

/-- The cell an off-hook CID renders (R138 to R140). -/
def Line.alertCell (tones : List ToneEntry) (L : Line) (r : AlertRun) : List Sample :=
  match r.phase with
  | .alert => (r.alertTone tones).samples 40
  | .awaitAck => silence
  | .settle => silence
  | .send => (L.fskOf r.fsk).samples false L.cidMessage 40

/-- How an off-hook CID goes on after a rendered cell: its run, or the event that ends it (R132, R138 to R140). -/
def Line.alertNext (tones : List ToneEntry) (L : Line) (r : AlertRun) : AlertRun ⊕ Event :=
  match r.phase with
  | .alert =>
    let r' := { r with tone := some ((r.alertTone tones).after 40) }
    if r.cells + 1 = 16 then .inl (r'.enter .awaitAck) else .inl { r' with cells := r.cells + 1 }
  | .awaitAck => if r.cells + 1 = 32 then .inr .cidNoAck else .inl { r with cells := r.cells + 1 }
  | .settle => if r.cells + 1 = 10 then .inl (r.enter .send) else .inl { r with cells := r.cells + 1 }
  | .send =>
    let f := (L.fskOf r.fsk).after false L.cidMessage 40
    if f.done false L.cidMessage then .inr .cidSent else .inl { r with cells := r.cells + 1, fsk := some f }

/-! ### Rendering -/

/-- The 40 samples that the ACTIVE context `c` renders for this cell (R76, R116, R132, R138). -/
def Line.renderCell (tones : List ToneEntry) (programs : List ProgramRecord) (L : Line) (c : Context) : List Sample :=
  match c.kind with
  | .program i r => r.render (programAt programs i) tones
  | .onHookCid f => (L.fskOf f).samples true L.cidMessage 40
  | .offHookCid r => L.alertCell tones r

/-- The line after the ACTIVE context `c` at level `v` has rendered its cell: it goes on, or it is removed with its record (R117, R132,
R139). -/
def Line.renderStep (tones : List ToneEntry) (programs : List ProgramRecord) (L : Line) (v : Level) (c : Context) : LineStep :=
  match c.kind with
  | .program i r =>
    match r.next (programAt programs i) tones with
    | some r' => (L.setContext v { c with kind := .program i r' }, [])
    | none => (L.dropContext v, [.signalDone v])
  | .onHookCid f =>
    let f' := (L.fskOf f).after true L.cidMessage 40
    if f'.done true L.cidMessage then L.onHookCidSent
    else (L.setContext v { c with kind := .onHookCid (some f') }, [])
  | .offHookCid r =>
    match L.alertNext tones r with
    | .inl r' => (L.setContext v { c with kind := .offHookCid r' }, [])
    | .inr e => (L.endOffHookCid, [e])

/-- The rendered cell joins the content by the context's output mode (R76, R119). -/
def joinCell (m : OutputMode) (content rendered : List Sample) : List Sample :=
  match m with
  | .overlay => addCells content rendered
  | .exclusive => rendered

end Sys2Proof.Machine
end

