-- ==== Sys2Proof/Machine/Links.lean ====
section
/-! DEFINITION. Link status and LINE STATUS: LINE_STATUS (R177), READ_LINK_STATUS and CLEAR_LINK_STATUS (R174), SET_IRQ_MODE (R104,
R182), UNKNOWN_CODE (R173), TRUNCATED_FRAME (R52, R172). -/

namespace Sys2Proof.Machine

/-! ### LINE STATUS (R177) -/

/-- Ring state number (R177). -/
def RingState.number : RingState → Byte
  | .idle => 0
  | .on _ _ => 1
  | .off _ _ => 2
  | .cidDelay _ _ _ => 3
  | .cidSend _ _ => 4

/-- Playout state byte (R177). -/
def PlayoutState.byte : PlayoutState → Byte
  | .idle => 0
  | .running => 1
  | .starved => 2

/-- State and kind bytes of a context (R177). -/
def contextBytes : Option Context → List Byte
  | none => [0, 0xFF]
  | some c =>
    [ match c.state with
      | .active => 1
      | .suspended => 2,
      match c.kind with
      | .program r _ => byte r
      | .onHookCid _ => 0x40
      | .offHookCid _ => 0x41 ]

/-- Line and mode byte: bit 0 ENABLED, bit 1 FAX, bits 3..2 the pending mode (R177). -/
def Line.modeByte (L : Line) : Byte :=
  flag L.enabled + 2 * L.mode.byte + 4 * pendingByte L.pendingMode

/-- Playing half: 0 NONE, 1 FIRST, 2 SECOND; NONE before the start boundary and when DISABLED (R91, R177). -/
def Line.playingByte (L : Line) : Byte :=
  if L.enabled && L.started then
    match L.playing with
    | .first => 1
    | .second => 2
  else 0

/-- Last window minimum: present, then its value, 0 when absent (R177). -/
def Line.minimumBytes (L : Line) : List Byte :=
  match L.window.lastMinimum with
  | some m => 1 :: int2 m
  | none => [0, 0, 0]

/-- Number of FILLED slots of the line's ring; 0 for a DISABLED line (R22). -/
def State.filledCount (s : State) (l : Fin 4) : Nat :=
  if (s.line l).enabled then s.store.countFilled (s.line l).playBase (s.line l).lp else 0

/-- Playout state byte: 0xFF for a DISABLED line, and IDLE for an ENABLED line before its start boundary, whatever an anchoring write has
made of it by then (R177). -/
def Line.playoutByte (L : Line) : Byte := if L.enabled then (if L.started then L.playout.byte else 0) else 0xFF

/-- The horizon reported: 0 for a DISABLED line and before the start boundary (R177). -/
def Line.horizonReported (L : Line) : Word32 := if L.enabled && L.started then L.horizon else 0

/-- The 35 bytes of LINE STATUS, all read in one event (R177). -/
def State.statusBytes (s : State) (l : Fin 4) : List Byte :=
  let L := s.line l
  [L.modeByte, L.playoutByte]
    ++ bytes4 L.horizonReported
    ++ [L.playingByte, int1 L.pendingSlip]
    ++ L.minimumBytes
    ++ nat2 (s.filledCount l)
    ++ [byte L.unread, flag L.offHook + 16 * L.ring.state.number]
    ++ contextBytes L.background ++ contextBytes L.foreground ++ L.stats.bytes

/-- LINE_STATUS (R177), on either link, in any line state. -/
def execLineStatus (link : Link) (line : Byte) (s : State) : Host.Outcome State Fault Refusal :=
  s.takeOn link fun s => s.withLine link line fun l => s.answer link .ok (s.statusBytes l)

/-! ### Link status (R174) -/

/-- Timebase byte: 0 HELD, 1 RUNNING. -/
def Timebase.byte : Timebase → Byte
  | .held => 0
  | .running => 1

/-- Deposit byte: 0 closed, 1 open, 2 open and broken. -/
def depositByte : Option Deposit → Byte
  | none => 0
  | some d => if d.broken then 2 else 1

/-- Mask, cell count and samples held of the open deposit, 0 when closed (R47, R174). -/
def depositFields : Option Deposit → List Byte
  | none => [0, 0, 0, 0]
  | some d => [maskByte d.mask, byte d.cells] ++ nat2 d.samples.length

/-- The response fields of READ LINK STATUS on a link (R174). -/
def State.linkBytes (s : State) : Link → List Byte
  | .control =>
    [flag s.cLink.frame + 2 * flag s.cLink.unknown, s.cLink.irq.mode.byte, s.timebase.byte, byte s.events.length] ++ bytes4 s.g
  | .media =>
    [flag s.mLink.frame + 2 * flag s.mLink.unknown + 4 * flag s.sequence, s.mLink.irq.mode.byte, depositByte s.deposit]
      ++ depositFields s.deposit

/-- READ_LINK_STATUS (R174). -/
def execReadLinkStatus (link : Link) (s : State) : Host.Outcome State Fault Refusal :=
  s.takeOn link fun s => s.answer link .ok (s.linkBytes link)

/-- Every sticky flag of one link cleared (R174). -/
def State.clearFlags (s : State) : Link → State
  | .control => { s with cLink := { s.cLink with frame := false, unknown := false } }
  | .media => { s with mLink := { s.mLink with frame := false, unknown := false }, sequence := false }

/-- CLEAR_LINK_STATUS (R174). -/
def execClearLinkStatus (link : Link) (s : State) : Host.Outcome State Fault Refusal :=
  s.takeOn link fun s => (s.clearFlags link).answer link .ok []

/-- SET_IRQ_MODE (R104, R182). -/
def execSetIrqMode (link : Link) (mode : Byte) (s : State) : Host.Outcome State Fault Refusal :=
  s.takeOn link fun s =>
    match irqModeOf mode with
    | none => s.refuse link .range
    | some m => (s.setLink link { s.link link with irq := (s.link link).irq.setMode m }).answer link .ok [m.byte]

/-! ### Frames that are no request (R172, R173) -/

/-- UNKNOWN_CODE (R173): UNKNOWN is set and answered. A code that names a request of the link is no unknown code, and the event does
not occur. -/
def execUnknownCode (link : Link) (code : Byte) (s : State) : Host.Outcome State Fault Refusal :=
  if knownCode link code then .next s
  else s.takeOn link fun s => (s.setLink link { s.link link with unknown := true }).refuse link .unknown

/-- TRUNCATED_FRAME (R172): FRAME is set and the request discarded; a truncated DEPOSIT DATA marks an open deposit broken (R52). A
request without arguments is taken at its code byte, so no frame of it, nor of an unknown code, is ever truncated. -/
def execTruncatedFrame (link : Link) (code : Byte) (s : State) : Host.Outcome State Fault Refusal :=
  if (argumentCodes link).contains code then
    s.takeOn link fun s => if link = .media ∧ code = depositDataCode then (s.breakDeposit).truncated .media else s.truncated link
  else .next s

end Sys2Proof.Machine
end

