-- ==== Sys2Proof/Machine/Signals.lean ====
section
/-! DEFINITION. The Signal Generator's requests: WRITE_TONES (R105 to R107), WRITE_PROGRAM (R108, R109), START_SIGNAL (R113 to R115),
STOP_SIGNAL (R120). -/

namespace Sys2Proof.Machine

/-! ### WRITE TONES -/

/-- A written entry: frequencies at most 3999, attenuation at most 127 (R106, 3). -/
def ToneEntry.stored (a b att : Word16) : ToneEntry := ⟨min a.toNat 3999, min b.toNat 3999, min att.toNat 127⟩

/-- One field taken: it joins the staging record, and a third field writes the entry at the cursor, empties the staging record and
advances the cursor, 31 being followed by 0 (R106, 2). -/
def State.takeField (s : State) (f : Word16) : State :=
  match s.toneStaging with
  | [a, b] =>
    { s with
      tones := s.tones.set s.toneCursor (ToneEntry.stored a b f), toneStaging := [], toneCursor := (s.toneCursor + 1) % 32 }
  | staged => { s with toneStaging := staged ++ [f] }

/-- The start argument: an index sets the cursor and empties the staging record; CONTINUE keeps both (R106, 1). -/
def State.startTones (s : State) (start : Byte) : State :=
  if start = 0xFF then s else { s with toneCursor := start.toNat, toneStaging := [] }

/-- The table, cursor and staging record after a taken WRITE TONES. -/
def State.writeFields (s : State) (start : Byte) (fields : List Word16) : State :=
  fields.foldl State.takeField (s.startTones start)

/-- WRITE_TONES (R106). A list shorter than an accepted count is a truncated frame (R107, log entry 8). -/
def execWriteTones (start count : Byte) (fields : List Word16) (s : State) : Host.Outcome State Fault Refusal :=
  s.takeControl fun s =>
    if !(toneStartOk start && toneCountOk count) then s.refuse .control .range
    else if fields.length < count.toNat then s.truncated .control
    else
      let s' := s.writeFields start (fields.take count.toNat)
      s'.answer .control .ok [byte s'.toneCursor, byte s'.toneStaging.length]

/-! ### WRITE PROGRAM -/

/-- The segment's tone is 0..31 or SILENCE (R109). -/
def RawSegment.toneOk (r : RawSegment) : Bool := (toneOf r.tone).isSome

/-- The segment's duration is 1..4000 (R109). -/
def RawSegment.durationOk (r : RawSegment) : Bool := decide (1 ≤ r.duration.toNat) && decide (r.duration.toNat ≤ 4000)

/-- A segment as it is held. -/
def RawSegment.segment (r : RawSegment) : Segment := ⟨(toneOf r.tone).getD none, r.duration.toNat⟩

/-- Some context of some line refers to the record (R109). -/
def State.inUse (s : State) (record : Nat) : Bool := four.any fun l => (s.line l).refersTo record

/-- The record that WRITE PROGRAM stores (R108). -/
def programRecord (control repeats : Byte) (segments : List RawSegment) : ProgramRecord :=
  ⟨if control.getLsbD 0 then .exclusive else .overlay, repeats.toNat, control.getLsbD 1, segments.map RawSegment.segment⟩

/-- The checks of WRITE PROGRAM, in order (R109). -/
def writeProgramChecks (s : State) (record : Byte) (segments : List RawSegment) : List (Bool × Result) :=
  [ (decide (record.toNat ≤ 15), .range),
    (segments.all RawSegment.toneOk, .range),
    (segments.all RawSegment.durationOk, .range),
    (!s.inUse record.toNat, .inUse) ]

/-- WRITE_PROGRAM (R109). A segment count above 8 is refused at the count (R171). -/
def execWriteProgram (record control repeats count : Byte) (segments : List RawSegment) (s : State) :
    Host.Outcome State Fault Refusal :=
  s.takeControl fun s =>
    if !segmentCountOk count then s.refuse .control .range
    else if segments.length < count.toNat then s.truncated .control
    else
      s.checked .control (writeProgramChecks s record (segments.take count.toNat))
        (({ s with programs := s.programs.set record.toNat (programRecord control repeats (segments.take count.toNat)) }).answer
          .control .ok [])

/-! ### START SIGNAL -/

/-- The checks of START SIGNAL after line and level, in order (R113). -/
def startSignalChecks (s : State) (L : Line) (record : Byte) (level : Level) : List (Bool × Result) :=
  [ (decide (record.toNat ≤ 15), .range),
    (!(programAt s.programs record.toNat).segments.isEmpty, .range),
    (L.enabled, .state),
    (L.mode == .voice, .faxMode),
    (level == .background || (L.foreground.isNone && !L.ring.holdsCid), .busy) ]

/-- The state a new context starts in: SUSPENDED for a background under a foreground, else ACTIVE (R114, R115). -/
def Line.startState (L : Line) : Level → CtxState
  | .foreground => .active
  | .background => if L.foreground.isSome then .suspended else .active

/-- The new context in its place: a background replaces the one held, which is removed with SIGNAL CANCELLED cause REPLACED (R114); a foreground
suspends the background (R115). -/
def Line.startContext (L : Line) (record : Nat) (p : ProgramRecord) (level : Level) : LineStep :=
  let c := Context.ofProgram record p (L.startState level)
  match level with
  | .background =>
    let removed := L.touchMark L.dropBackground
    (removed.touchMark { removed with background := some c }, if L.background.isSome then [.signalCancelled .background .replaced] else [])
  | .foreground => (L.touchMark (L.putForeground c), [])

/-- Context state as a byte: 1 ACTIVE, 2 SUSPENDED (R175). -/
def CtxState.byte : CtxState → Byte
  | .active => 1
  | .suspended => 2

/-- START_SIGNAL (R113 to R115). -/
def execStartSignal (line record level : Byte) (s : State) : Host.Outcome State Fault Refusal :=
  s.takeControl fun s => s.withLine .control line fun l =>
    match levelOf level with
    | none => s.refuse .control .range
    | some v =>
      s.checked .control (startSignalChecks s (s.line l) record v)
        ((s.commitLine l s.g ((s.line l).startContext record.toNat (programAt s.programs record.toNat) v)).answer .control .ok
          [((s.line l).startState v).byte])

/-! ### STOP SIGNAL -/

/-- The context the line holds at a level. -/
def Line.contextAt (L : Line) : Level → Option Context
  | .background => L.background
  | .foreground => L.foreground

/-- A program context stopped: removed, with SIGNAL CANCELLED cause STOP (R120). -/
def Line.stopProgram (L : Line) (v : Level) : LineStep :=
  match v with
  | .background => (L.touchMark L.dropBackground, [.signalCancelled .background .stop])
  | .foreground => (L.touchMark L.dropForeground, [.signalCancelled .foreground .stop])

/-- An off-hook CID stopped (R120, R141). -/
def Line.stopAlert (L : Line) : LineStep := (L.touchMark L.endOffHookCid, [.cidAborted .stop])

/-- STOP_SIGNAL (R120). -/
def execStopSignal (line level : Byte) (s : State) : Host.Outcome State Fault Refusal :=
  s.takeControl fun s => s.withLine .control line fun l =>
    match levelOf level with
    | none => s.refuse .control .range
    | some v =>
      match (s.line l).contextAt v with
      | none => s.refuse .control .none
      | some c =>
        match c.kind with
        | .program _ _ => (s.commitLine l s.g ((s.line l).stopProgram v)).answer .control .ok []
        | .offHookCid _ => (s.commitLine l s.g (s.line l).stopAlert).answer .control .ok []
        | .onHookCid _ => s.refuse .control .busy

end Sys2Proof.Machine
end

