-- ==== Sys2Proof/Machine/Hook.lean ====
section
/-! DEFINITION. The Hook Monitor (9.1): the classifier's step and the meanings of HOOK_SAMPLE, OFF_HOOK, ON_HOOK, PULSE_DIGIT. -/

namespace Sys2Proof.Machine

/-- The classifier replaced. -/
def Line.setHook (L : Line) (st : HookState) (pulses : Nat) : Line := { L with hook := ⟨st, pulses⟩ }

/-- The record of a dialled digit of `n` pulses (R146); none for no pulse. -/
def dialled (n : Nat) : List Event :=
  if n = 0 then [] else if n ≤ 9 then [.pulseDigit n] else if n = 10 then [.pulseDigit 0] else [.dialError n]

/-- The line is qualified OFF-HOOK (R144): OFFHOOK with pulse count 0; ringing ends as ring trip, an on-hook CID with CID ABORTED cause
OFF-HOOK after the OFF-HOOK record (R136, R155), whose ring-trip flag says whether RINGEN was high. -/
def Line.qualifyOffHook (L : Line) : LineStep :=
  let a := (L.setHook .offhook 0).endRinging .offHook
  (a.1, .offHook L.ringen :: a.2)

/-- The line is qualified ON-HOOK (R147): ONHOOK with every count 0, pending pulses discarded; an off-hook CID and the program contexts
end, their records after the ON-HOOK record. -/
def Line.qualifyOnHook (L : Line) : LineStep :=
  let a := (L.setHook (.onhook 0) 0).onHookContexts
  (a.1, .onHook :: a.2)

/-- The state to return to after a glitch (R148). -/
def HookReturn.state : HookReturn → HookState
  | .offhook => .offhook
  | .dialing make => .dialing make

/-- A break of `b` cells ended by a raw off-hook sample (R148). -/
def Line.endBreak (programs : List ProgramRecord) (L : Line) (b : Nat) (ret : HookReturn) : LineStep :=
  if b ≤ 3 then (L.setHook ret.state L.hook.pulses, [])
  else if b ≤ 20 then
    let n := L.hook.pulses
    let L' := L.setHook (.dialing 0) (countUp 255 n)
    if n = 0 then L'.cutBackground programs else (L', [])
  else (L.setHook .offhook 0, dialled L.hook.pulses ++ [.flash])

/-- One step of the classifier with a raw sample, true for off-hook (R144 to R148). -/
def Line.stepHook (programs : List ProgramRecord) (L : Line) (raw : Bool) : LineStep :=
  match L.hook.state, raw with
  | .onhook _, false => (L.setHook (.onhook 0) L.hook.pulses, [])
  | .onhook off, true => if off + 1 = 4 then L.qualifyOffHook else (L.setHook (.onhook (off + 1)) L.hook.pulses, [])
  | .offhook, true => (L, [])
  | .offhook, false => (L.setHook (.brk 1 .offhook) L.hook.pulses, [])
  | .dialing make, true =>
    if make + 1 = 60 then (L.setHook .offhook 0, dialled L.hook.pulses)
    else (L.setHook (.dialing (make + 1)) L.hook.pulses, [])
  | .dialing make, false => (L.setHook (.brk 1 (.dialing make)) L.hook.pulses, [])
  | .brk b ret, true => L.endBreak programs b ret
  | .brk b ret, false => if b + 1 = 181 then L.qualifyOnHook else (L.setHook (.brk (b + 1) ret) L.hook.pulses, [])

/-- The hook sample of a line's last boundary is still to be taken. -/
def Line.hookDue (L : Line) : Bool := L.enabled && L.started && L.due.hook

/-- The step of the last boundary with the level the HOOK pin has (R143). -/
def Line.takeHook (programs : List ProgramRecord) (L : Line) : LineStep :=
  { L with due := { L.due with hook := false } }.stepHook programs L.hookPin

/-- The hook sample, if it is due: stamped with the global cell just ended (R143). It sets no signalling mark (R94). DESIGN CHOICE, log entry
16: a context that it removes does not count for the new cell, although a load taken since the boundary rendered from it, where R142 carries
SIGNALLING to the global cell of an on-hook CID's last load; and one that another work of the same boundary began counts for no cell. -/
def State.hookStep (s : State) (l : Fin 4) : State :=
  if (s.line l).hookDue then s.commitLine l s.endedCell ((s.line l).takeHook s.programs) else s

/-- The qualified hook state as the Hook Monitor's step for the global cell just ended leaves it, whether or not that step has been
taken yet (R94). -/
def Line.offHookAfterStep (programs : List ProgramRecord) (L : Line) : Bool :=
  if L.hookDue then (L.stepHook programs L.hookPin).1.offHook else L.offHook

/-- The sample now due qualifies OFF-HOOK (R144). -/
def Line.willLift (L : Line) : Bool := L.hook.state == .onhook 3 && L.hookPin

/-- The sample now due qualifies ON-HOOK (R147). -/
def Line.willHangUp (L : Line) : Bool :=
  match L.hook.state with
  | .brk b _ => b == 180 && !L.hookPin
  | _ => false

/-- The sample now due completes a dialled digit (R146). -/
def Line.willDial (L : Line) : Bool := L.hook.state == .dialing 59 && L.hookPin

/-- HOOK_SAMPLE (R143). -/
def execHookSample (l : Fin 4) (s : State) : Host.Outcome State Fault Refusal :=
  s.take fun s => s.hookStep l

/-- OFF_HOOK (R144): the hook sample that qualifies OFF-HOOK. Where the sample due does not, the event does not occur. -/
def execOffHook (l : Fin 4) (s : State) : Host.Outcome State Fault Refusal :=
  s.take fun s => if (s.line l).willLift then s.hookStep l else s

/-- ON_HOOK (R147): the hook sample that qualifies ON-HOOK. -/
def execOnHook (l : Fin 4) (s : State) : Host.Outcome State Fault Refusal :=
  s.take fun s => if (s.line l).willHangUp then s.hookStep l else s

/-- PULSE_DIGIT (R146): the hook sample that completes a dialled digit. -/
def execPulseDigit (l : Fin 4) (s : State) : Host.Outcome State Fault Refusal :=
  s.take fun s => if (s.line l).willDial then s.hookStep l else s

end Sys2Proof.Machine
end

