-- ==== Sys2Proof/Machine/Capture.lean ====
section
/-! DEFINITION. The Capture Unit (chapter 6): CAPTURE_STORE, CAPTURE_READ and the layout of capture records (R176), MIRQ_PULSE. -/

namespace Sys2Proof.Machine

/-! ### Storing a record (R92 to R96) -/

/-- The capture cell record of the global cell just ended (R92 to R94). -/
def Line.captureRecord (programs : List ProgramRecord) (ended : Word32) (L : Line) : StoreCell :=
  ⟨L.closedHalf.samples,
    .capture
      { stamp := ended
        reference := L.closedHalf.reference
        cls := L.closedHalf.cls
        offhook := L.offHookAfterStep programs
        signalling := L.closedMark
        fax := L.mode == .fax }⟩

/-- The indices, the unread count and the overruns counter after a store (R95, R96). -/
def Line.stored (L : Line) : Line :=
  if L.unread < L.lc then { L with capWrite := (L.capWrite + 1) % L.lc, unread := L.unread + 1 }
  else
    { L with
      capWrite := (L.capWrite + 1) % L.lc
      capRead := (L.capRead + 1) % L.lc
      stats := { L.stats with overruns := countUp 65535 L.stats.overruns } }

/-- A store raises u from one less than the capture threshold to the threshold (R103). -/
def Line.owesPulse (L : Line) : Bool := decide (L.unread < L.lc) && L.unread + 1 == L.capThreshold

/-- The capture store of a line's last boundary is still to be taken. -/
def Line.captureDue (L : Line) : Bool := L.enabled && L.started && L.due.capture

/-- Store cell of the record place at the write index (R25). -/
def Line.writePlace (L : Line) : Nat := L.capBase + L.capWrite

/-- The closed half stored as a record, in one event (R95): the store cell, the line's indices, and the pulse MIRQ owes (R103). -/
def State.storeCapture (s : State) (l : Fin 4) : State :=
  let L := s.line l
  let s' := s.setStore (s.store.write L.writePlace (L.captureRecord s.programs s.endedCell))
  let s' := s'.setLine l { L.stored with due := { L.due with capture := false } }
  if L.owesPulse then s'.setLink .media { s'.mLink with irq := s'.mLink.irq.owe 4 } else s'

/-- The capture store, if it is due. -/
def State.captureStep (s : State) (l : Fin 4) : State :=
  if (s.line l).captureDue then s.storeCapture l else s

/-- CAPTURE_STORE (R95). -/
def execCaptureStore (l : Fin 4) (s : State) : Host.Outcome State Fault Refusal :=
  s.take fun s => s.captureStep l

/-! ### CAPTURE READ (R98, R99, R176) -/

/-- Class byte (R176). -/
def CellClass.byte : CellClass → Byte
  | .none => 0x00
  | .other => 0x01
  | .dtmf d => 0x10 + digitByte d
  | .faxCalling => 0x20
  | .faxAnswer => 0x21

/-- Flags byte: bit 0 OFFHOOK, bit 1 SIGNALLING, bit 2 FAX (R176). -/
def CaptureInfo.flags (i : CaptureInfo) : Byte :=
  (if i.offhook then 1 else 0) + (if i.signalling then 2 else 0) + (if i.fax then 4 else 0)

/-- The 90 bytes of a capture record (R176). -/
def recordBytes (c : StoreCell) : List Byte :=
  bytes4 c.captureInfo.stamp ++ bytes4 c.captureInfo.reference ++ [c.captureInfo.cls.byte, c.captureInfo.flags]
    ++ c.samples.flatMap bytes2

/-- The `r` oldest unread records, oldest first (R98). -/
def State.oldest (s : State) (l : Fin 4) (r : Nat) : List StoreCell :=
  let L := s.line l
  (List.range r).map fun k => s.store.read (L.capBase + (L.capRead + k) % L.lc)

/-- Records removed from the ring by a read of `r` (R98). -/
def Line.readOut (L : Line) (r : Nat) : Line :=
  { L with capRead := (L.capRead + r) % L.lc, unread := L.unread - r }

/-- CAPTURE_READ (R98): the count r, then the r records. -/
def execCaptureRead (line maximum : Byte) (s : State) : Host.Outcome State Fault Refusal :=
  s.takeMedia fun s => s.withLine .media line fun l =>
    s.checked .media
      [ (decide (1 ≤ maximum.toNat) && decide (maximum.toNat ≤ 8), .range), ((s.line l).enabled, .state) ]
      (let r := min maximum.toNat (s.line l).unread
       (s.setLine l ((s.line l).readOut r)).answer .media .ok (byte r :: (s.oldest l r).flatMap recordBytes))

/-- MIRQ_PULSE (R103): `periods` REFCLK periods of the MIRQ output. -/
def execMirqPulse (periods : Nat) (s : State) : Host.Outcome State Fault Refusal :=
  s.take fun s => s.setLink .media { s.mLink with irq := s.mLink.irq.ticks periods }

end Sys2Proof.Machine
end

