-- ==== Sys2Proof/Machine/Playout.lean ====
section
/-! DEFINITION. The load event, stage by stage (5.2 to 5.4), and the meanings of LOAD, STARVE, WINDOW_CLOSE, SIGNAL_DONE, ALERT_END,
CID_NO_ACK, SETTLE_END, CID_SENT, FAX_ANSWER. -/

namespace Sys2Proof.Machine

/-- What a load reads of the part: the slot at hs, the fill pattern and the tables. -/
structure LoadInput where
  slot : StoreCell
  pattern : List Sample
  tones : List ToneEntry
  programs : List ProgramRecord

/-! ### Stage 1: pending mode (R74) -/

/-- A pending mode is applied: contexts cancelled (R123), detector machines reset (R163), MODE CHANGED queued last. -/
def Line.changeMode (L : Line) (p : PendingMode) : LineStep :=
  let a := L.modeForeground
  let b := a.1.modeBackground
  let c := b.1.resetDetector
  ({ c.1 with mode := p.mode, pendingMode := none }, a.2 ++ b.2 ++ c.2 ++ [.modeChanged p.mode p.cause])

/-- Stage 1. With no pending mode it does nothing. -/
def Line.stageMode (L : Line) : LineStep :=
  match L.pendingMode with
  | some p => L.changeMode p
  | none => (L, [])

/-! ### Stage 2: content or concealment (R72 to R75) -/

/-- The content of an EMPTY slot, by the playout state before the load, the mode and the run after its increase (R74). -/
def Line.conceal (L : Line) (pattern : List Sample) (run : Nat) : List Sample :=
  match L.playout, L.mode with
  | .idle, _ => silence
  | .running, .voice =>
    match L.repeatBuffer with
    | some cell => if run ≤ 4 then attenuate run cell else transform false L.config.fillGain pattern
    | none => transform false L.config.fillGain pattern
  | .starved, .voice => transform false L.config.fillGain pattern
  | _, .fax => silence

/-- An ANCHORED record becomes STALE and its offset is dropped (R35). -/
def Anchor.goStale : Anchor → Anchor
  | .anchored _ => .stale
  | a => a

/-- The load enters STARVED (R75): a RUNNING line whose run after its increase is at or above K. -/
def Line.starves (L : Line) : Bool :=
  L.playout == .running && decide (L.config.starve ≤ countUp 65535 L.run)

/-- The line after the load of an EMPTY slot (R73 to R75, R89). -/
def Line.emptyLoaded (L : Line) : Line :=
  let L' := { L with
    run := countUp 65535 L.run
    stats := if L.playout = .idle then L.stats else { L.stats with concealed := countUp 65535 L.stats.concealed } }
  if L.starves then
    { L' with playout := .starved, anchors := if L.mode = .voice then L.anchors.map Anchor.goStale else L.anchors }
  else L'

/-- The line after the load of a FILLED slot (R71 to R73). -/
def Line.filledLoaded (L : Line) (slot : StoreCell) : Line :=
  { L with
    run := 0
    playout := if L.playout = .starved then .running else L.playout
    repeatBuffer := if slot.holdsMedia then some slot.samples else L.repeatBuffer }

/-- Stage 2: the line after it. -/
def Line.stageContent (L : Line) (slot : StoreCell) : Line :=
  if slot.filled then L.filledLoaded slot else L.emptyLoaded

/-- Stage 2: the content of the cell. -/
def Line.content (L : Line) (slot : StoreCell) (pattern : List Sample) : List Sample :=
  if slot.filled then slot.samples else L.conceal pattern (countUp 65535 L.run)

/-! ### Stage 3: generator output (R76) -/

/-- Stage 3: the line after it and the records it queues. A MEDIA slot replaced by an EXCLUSIVE rendering counts as suppressed. -/
def Line.stageRender (L : Line) (i : LoadInput) : LineStep :=
  match L.activeContext with
  | some (v, c) =>
    let L' := if c.output = .exclusive ∧ i.slot.holdsMedia then
        { L with stats := { L.stats with suppressed := countUp 65535 L.stats.suppressed } } else L
    L'.renderStep i.tones i.programs v c
  | none => (L, [])

/-- Stage 3: the final samples of the cell. -/
def Line.finalCell (L : Line) (i : LoadInput) (content : List Sample) : List Sample :=
  match L.activeContext with
  | some (_, c) => joinCell c.output content (L.renderCell i.tones i.programs c)
  | none => content

/-- The cell carries generator output (R76). -/
def Line.carriesOutput (L : Line) : Bool := L.activeContext.isSome

/-! ### Stages 4 and 5: quiet test and slip (R77 to R79) -/

/-- A slip is applied (R78). -/
def Line.slips (L : Line) (output : Bool) (cell : List Sample) : Bool :=
  L.pendingSlip != 0 && !output &&
    (quiet L.config.quiet cell || (L.mode == .voice && decide (L.config.patience ≤ L.patience)))

/-- The slip given to the cell: the sign of the pending slip when one is applied, else 0 (R78). -/
def Line.slipOfCell (L : Line) (output : Bool) (cell : List Sample) : Int :=
  if L.slips output cell then L.pendingSlip.sign else 0

/-- Stage 5: pending slip, patience counter and slip counters (R78, R79). -/
def Line.stageSlip (L : Line) (output : Bool) (cell : List Sample) : Line :=
  if L.slips output cell then
    { L with
      pendingSlip := L.pendingSlip - L.pendingSlip.sign
      patience := 0
      stats := if 0 < L.pendingSlip then { L.stats with slipsPlus := countUp 65535 L.stats.slipsPlus }
        else { L.stats with slipsMinus := countUp 65535 L.stats.slipsMinus } }
  else { L with patience := if L.pendingSlip = 0 then 0 else countUp 255 L.patience }

/-! ### Stage 6: fax-answer feed (R80) -/

/-- Stage 6: in VOICE the final samples go to the playout fax-answer machine. -/
def Line.stageFeed (L : Line) (cell : List Sample) : LineStep :=
  match L.mode with
  | .voice => L.stepPlayoutAnswer (classify cell)
  | .fax => (L, [])

/-! ### Stage 7: half loaded, horizon advanced (R81) -/

/-- A playout half replaced. -/
def Line.setHalf (L : Line) (h : HalfId) (x : PlayHalf) : Line :=
  match h with
  | .first => { L with playFirst := x }
  | .second => { L with playSecond := x }

/-- A playout half. -/
def Line.half (L : Line) : HalfId → PlayHalf
  | .first => L.playFirst
  | .second => L.playSecond

/-- Stage 7: the freed half, the one that is not playing, takes the cell; H advances by 40 and hs by 1 modulo Lp (R24). The slot at hs
is made EMPTY by `State.loadLine`, in the same event. -/
def Line.stageLoad (L : Line) (cell : List Sample) (slip : Int) : Line :=
  { L.setHalf L.playing.other ⟨cell, L.horizon, slip⟩ with horizon := L.horizon + 40, hs := (L.hs + 1) % L.lp }

/-! ### Stage 8: margin window (R82) -/

/-- What a window close adds to the pending slip (R82). -/
def Line.windowSlip (L : Line) : Int :=
  if L.config.autoSlip then
    match L.window.minimum with
    | some m => if m < L.config.lowWater then 1 else if (L.config.highWater : Int) < m then -1 else 0
    | none => 0
  else 0

/-- The load closes the margin window (R82). -/
def Line.closesWindow (L : Line) : Bool := decide (L.config.window ≤ L.window.counter + 1)

/-- Stage 8. -/
def Line.stageWindow (L : Line) : Line :=
  if L.closesWindow then
    { L with pendingSlip := clampSlip (L.pendingSlip + L.windowSlip), window := ⟨0, none, L.window.minimum⟩ }
  else { L with window := { L.window with counter := L.window.counter + 1 } }

/-! ### The load (R74) -/

/-- Stages 1 to 8 on the line's record, with the records queued, in order. -/
def Line.loadCell (L : Line) (i : LoadInput) : LineStep :=
  let m := L.stageMode
  let content := m.1.content i.slot i.pattern
  let c := m.1.stageContent i.slot
  let cell := c.finalCell i content
  let output := c.carriesOutput
  let r := c.stageRender i
  let slip := r.1.slipOfCell output cell
  let f := (r.1.stageSlip output cell).stageFeed cell
  let w := (f.1.stageLoad cell slip).stageWindow
  (L.touchMark { w with due := { w.due with load := false } }, m.2 ++ r.2 ++ f.2)

/-- A load is due: the line has taken a half boundary whose load is still to come (R10). -/
def Line.loadDue (L : Line) : Bool := L.enabled && L.started && L.due.load

/-- Store cell of the slot at hs (R23). -/
def Line.slotCell (L : Line) : Nat := L.playBase + L.hs

/-- What the line's load reads now. -/
def State.loadInput (s : State) (l : Fin 4) : LoadInput :=
  ⟨s.store.read (s.line l).slotCell, s.fillPattern, s.tones, s.programs⟩

/-- The line's load: the slot at hs is taken and made EMPTY, the line goes through the stages, the records are stamped with the global
cell in which the load is taken. -/
def State.loadLine (s : State) (l : Fin 4) : State :=
  ((s.setStore (s.store.write (s.line l).slotCell .reset)).commitLine l s.g ((s.line l).loadCell (s.loadInput l)))

/-- The load, if it is due. -/
def State.loadStep (s : State) (l : Fin 4) : State :=
  if (s.line l).loadDue then s.loadLine l else s

/-! ### What comes about inside the load now due -/

/-- The line as stage 3 finds it. -/
def State.atRender (s : State) (l : Fin 4) : Line :=
  (s.line l).stageMode.1.stageContent (s.loadInput l).slot

/-- The load now due enters STARVED (R75). -/
def State.willStarve (s : State) (l : Fin 4) : Bool :=
  !(s.loadInput l).slot.filled && (s.line l).stageMode.1.starves

/-- The records stage 3 of the load now due queues. -/
def State.renderEvents (s : State) (l : Fin 4) : List Event := ((s.atRender l).stageRender (s.loadInput l)).2

/-- The phase of the line's off-hook CID with the cells rendered in it, as stage 3 of the load now due finds it. -/
def State.alertAt (s : State) (l : Fin 4) : Option (AlertPhase × Nat) :=
  match (s.atRender l).foreground with
  | some c =>
    match c.kind with
    | .offHookCid r => some (r.phase, r.cells)
    | _ => none
  | none => none

/-- The load now due completes a playout fax-answer run (R165). -/
def State.willHearAnswer (s : State) (l : Fin 4) : Bool :=
  (s.line l).detector.playoutAnswer == 59 && ((s.loadLine l).line l).detector.playoutAnswer == 60

/-- LOAD (R74). -/
def execLoad (l : Fin 4) (s : State) : Host.Outcome State Fault Refusal :=
  s.take fun s => s.loadStep l

/-- STARVE (R75): the load at which the line enters STARVED. Where the load due does not, the event does not occur. -/
def execStarve (l : Fin 4) (s : State) : Host.Outcome State Fault Refusal :=
  s.take fun s => if s.willStarve l then s.loadStep l else s

/-- WINDOW_CLOSE (R82): the load that closes the margin window. -/
def execWindowClose (l : Fin 4) (s : State) : Host.Outcome State Fault Refusal :=
  s.take fun s => if (s.line l).closesWindow then s.loadStep l else s

/-- SIGNAL_DONE (R117): the load that renders a program's last cell. -/
def execSignalDone (l : Fin 4) (s : State) : Host.Outcome State Fault Refusal :=
  s.take fun s =>
    if s.renderEvents l = [.signalDone .background] ∨ s.renderEvents l = [.signalDone .foreground] then s.loadStep l else s

/-- ALERT_END (R138): the load that renders the 16th ALERT cell. -/
def execAlertEnd (l : Fin 4) (s : State) : Host.Outcome State Fault Refusal :=
  s.take fun s => if s.alertAt l = some (.alert, 15) then s.loadStep l else s

/-- CID_NO_ACK (R139): the load that renders the 32nd AWAIT-ACK cell. -/
def execCidNoAck (l : Fin 4) (s : State) : Host.Outcome State Fault Refusal :=
  s.take fun s => if s.alertAt l = some (.awaitAck, 31) then s.loadStep l else s

/-- SETTLE_END (R140): the load that renders the 10th SETTLE cell. -/
def execSettleEnd (l : Fin 4) (s : State) : Host.Outcome State Fault Refusal :=
  s.take fun s => if s.alertAt l = some (.settle, 9) then s.loadStep l else s

/-- CID_SENT (R132): the load that renders the last FSK cell. -/
def execCidSent (l : Fin 4) (s : State) : Host.Outcome State Fault Refusal :=
  s.take fun s => if (s.renderEvents l).head? = some .cidSent then s.loadStep l else s

/-- FAX_ANSWER (R165): the detector step (LOCAL) or the load (REMOTE) that completes a fax-answer run. -/
def execFaxAnswer (l : Fin 4) (direction : Direction) (s : State) : Host.Outcome State Fault Refusal :=
  s.take fun s =>
    match direction with
    | .localEnd => if (s.line l).willAnswer then s.detectorStep l else s
    | .remoteEnd => if s.willHearAnswer l then s.loadStep l else s

end Sys2Proof.Machine
end

