-- ==== Sys2Proof/Machine/Ring.lean ====
section
/-! DEFINITION. The Ring Controller (9.2, 9.3) with the on-hook CID it schedules (8.3), and the meanings of RING_START, RING_STOP,
BURST_END, BURST_BEGIN, CID_SEND. -/

namespace Sys2Proof.Machine

/-! ### The step at a global cell boundary (R134, R153, R154) -/

/-- A burst that no CID follows ends (R153): OFF with bursts still to come, else IDLE with RING DONE cause COUNT. -/
def Line.endPlainBurst (L : Line) (begun : Nat) : LineStep :=
  if L.ring.bursts = 0 ∨ begun < L.ring.bursts then (L.setRing (.off begun L.ring.offPeriod), [])
  else (L.ringIdle, [.ringDone .count])

/-- A burst ends (R153): after the first with the CID attached comes CID-DELAY, even with burst count 1 (R134). -/
def Line.endBurst (L : Line) (begun : Nat) : LineStep :=
  match L.ring.cid with
  | some delay =>
    if begun = 1 then (L.setRing (.cidDelay begun L.ring.offPeriod delay), []) else L.endPlainBurst begun
  | none => L.endPlainBurst begun

/-- The next burst begins (R154): bursts begun rises by 1 and stops at 255, the period is the on period. -/
def Line.beginBurst (L : Line) (begun : Nat) : Line := L.setRing (.on (countUp 255 begun) L.ring.onPeriod)

/-- The CID delay has run out (R134): CID-SEND, and an ON-HOOK CID context ACTIVE and EXCLUSIVE in the foreground. -/
def Line.beginCid (L : Line) (begun remaining : Nat) : Line :=
  (L.setRing (.cidSend begun remaining)).putForeground ⟨.active, .exclusive, .onHookCid none⟩

/-- The step of a line's Ring Controller at a boundary. -/
def Line.stepRing (L : Line) : LineStep :=
  match L.ring.state with
  | .idle => (L, [])
  | .on begun remaining =>
    if remaining ≤ 1 then L.endBurst begun else (L.setRing (.on begun (remaining - 1)), [])
  | .off begun remaining =>
    if remaining ≤ 1 then (L.beginBurst begun, []) else (L.setRing (.off begun (remaining - 1)), [])
  | .cidDelay begun remaining delay =>
    if delay ≤ 1 then (L.beginCid begun (remaining - 1), [])
    else (L.setRing (.cidDelay begun (remaining - 1) (delay - 1)), [])
  | .cidSend begun remaining => (L.setRing (.cidSend begun (remaining - 1)), [])

/-- The step would end a burst. -/
def RingState.endsBurst : RingState → Bool
  | .on _ remaining => decide (remaining ≤ 1)
  | _ => false

/-- The step would begin a burst. -/
def RingState.beginsBurst : RingState → Bool
  | .off _ remaining => decide (remaining ≤ 1)
  | _ => false

/-- The step would begin the CID. -/
def RingState.beginsCid : RingState → Bool
  | .cidDelay _ _ delay => decide (delay ≤ 1)
  | _ => false

/-- The step would change the ring state, and not only count a cell. -/
def RingState.turns (r : RingState) : Bool := r.endsBurst || r.beginsBurst || r.beginsCid

/-- The line's Ring Controller at a global cell boundary: a step that only counts is taken with the boundary; one that changes the ring
state is left as an event of its own, since the Hook Monitor's step may be taken before or after it (R157, log entry 5). -/
def Line.boundaryRing (L : Line) : Line :=
  if L.ring.state.turns then { L with due := { L.due with ring := true } } else L.stepRing.1

/-- The ring step of a line's last boundary is still to be taken. -/
def Line.ringDue (L : Line) : Bool := L.enabled && L.started && L.due.ring

/-- The ring step taken. -/
def Line.takeRing (L : Line) : LineStep :=
  { L with due := { L.due with ring := false } }.stepRing

/-- The ring step, if it is due. It sets no signalling mark (R94); for an on-hook CID that another work of the same boundary then removes,
this is a DESIGN CHOICE, log entry 16. -/
def State.ringStep (s : State) (l : Fin 4) : State :=
  if (s.line l).ringDue then s.commitLine l s.endedCell (s.line l).takeRing else s

/-- BURST_END (R153): the ring step that ends a burst. Where the step due does not, the event does not occur. -/
def execBurstEnd (l : Fin 4) (s : State) : Host.Outcome State Fault Refusal :=
  s.take fun s => if (s.line l).ring.state.endsBurst then s.ringStep l else s

/-- BURST_BEGIN (R154): the ring step that begins the next burst. -/
def execBurstBegin (l : Fin 4) (s : State) : Host.Outcome State Fault Refusal :=
  s.take fun s => if (s.line l).ring.state.beginsBurst then s.ringStep l else s

/-- CID_SEND (R134): the ring step at which the CID delay has run out. -/
def execCidSend (l : Fin 4) (s : State) : Host.Outcome State Fault Refusal :=
  s.take fun s => if (s.line l).ring.state.beginsCid then s.ringStep l else s

/-! ### RING START and RING STOP -/

/-- A period in its range. -/
def between (lo hi : Nat) (w : Word16) : Bool := decide (lo ≤ w.toNat) && decide (w.toNat ≤ hi)

/-- The checks of RING START (R152), with those of R133 for a CID, after the line number. -/
def ringStartChecks (L : Line) (on off : Word16) (cid : Byte) (delay : Word16) : List (Bool × Result) :=
  [ (cid == 0 || cid == 1, .range),
    (between 20 4000 on, .range),
    (between 20 8000 off, .range),
    (cid == 0 || between 20 400 delay, .range),
    (L.enabled, .state),
    (!L.offHook, .offHook),
    (L.ring.state == .idle, .busy),
    (cid == 0 || L.cid.message.isSome, .state),
    (cid == 0 || !L.cid.inUse, .inUse),
    (cid == 0 || L.mode == .voice, .faxMode),
    (cid == 0 || L.foreground.isNone, .busy) ]

/-- What a taken RING START does (R152, R133): the first burst begins, and an attached CID is scheduled with its buffer IN USE. -/
def Line.startRinging (L : Line) (on off : Word16) (bursts cid : Byte) (delay : Word16) : Line :=
  { L with
    ring := ⟨.on 1 on.toNat, on.toNat, off.toNat, bursts.toNat, if cid = 1 then some delay.toNat else none⟩
    cid := { L.cid with inUse := L.cid.inUse || cid == 1 } }

/-- RING_START (R152). -/
def execRingStart (line : Byte) (on off : Word16) (bursts cid : Byte) (delay : Word16) (s : State) :
    Host.Outcome State Fault Refusal :=
  s.takeControl fun s => s.withLine .control line fun l =>
    s.checked .control (ringStartChecks (s.line l) on off cid delay)
      ((s.setLine l ((s.line l).startRinging on off bursts cid delay)).answer .control .ok [])

/-- What a taken RING STOP does (R156): the ringing ends, with any on-hook CID, and RING DONE cause STOP comes last. -/
def Line.stopRinging (L : Line) : LineStep :=
  let a := L.endRinging .stop
  (L.touchMark a.1, a.2 ++ [.ringDone .stop])

/-- RING_STOP (R156). -/
def execRingStop (line : Byte) (s : State) : Host.Outcome State Fault Refusal :=
  s.takeControl fun s => s.withLine .control line fun l =>
    if (s.line l).ring.state = .idle then s.refuse .control .none
    else (s.commitLine l s.g (s.line l).stopRinging).answer .control .ok []

end Sys2Proof.Machine
end

