-- ==== Sys2Proof/Machine/Timebase.lean ====
section
/-! DEFINITION. Timebase, highway and serializers (chapter 1): DEVICE_RESET, START_TIMEBASE, HIGHWAY_FRAME, GLOBAL_CELL_BOUNDARY,
START_BOUNDARY. -/

namespace Sys2Proof.Machine

/-- DEVICE_RESET (R1): every piece of state at its reset value, no event queued; the queue of commands is the model's and stays.
`low` says that the RESET pin is still low after it, `cFrame` and `mFrame` that a frame of the link is under way when it returns high (R183). -/
def execDeviceReset (low : Bool) (s : State) (cFrame mFrame : Bool := false) : Host.Outcome State Fault Refusal :=
  .next
    { State.reset with
      resetLow := low
      cLink := { LinkState.reset with ignoring := cFrame }
      mLink := { LinkState.reset with ignoring := mFrame }
      pending := s.pending }

/-- START_TIMEBASE (R2). -/
def execStartTimebase (s : State) : Host.Outcome State Fault Refusal :=
  s.takeControl fun s => ({ s with timebase := .running }).answer .control .ok []

/-! ### The global cell boundary (R3, R11, R94) -/

/-- A capture half replaced. -/
def Line.setCapture (L : Line) (h : HalfId) (x : CaptureHalf) : Line :=
  match h with
  | .first => { L with capFirst := x }
  | .second => { L with capSecond := x }

/-- The filling capture half. -/
def Line.fillingHalf (L : Line) : CaptureHalf :=
  match L.filling with
  | .first => L.capFirst
  | .second => L.capSecond

/-- The filling half closes and is handed over with its class; the other begins filling (R11, R159). -/
def Line.closeCapture (L : Line) : Line :=
  let closed := { L.fillingHalf with cls := classify L.fillingHalf.samples }
  { (L.setCapture L.filling closed).setCapture L.filling.other .reset with filling := L.filling.other }

/-- What a boundary does on one line (R3). A started line closes its capture half, hands over its signalling mark, counts its ring
period, and has its capture store, detector step and hook sample to take. An enabled line not yet started has its start boundary to
take (R9). A DISABLED line takes nothing (R6). -/
def Line.boundary (L : Line) : Line :=
  if L.enabled then
    if L.started then
      let L' := L.closeCapture.boundaryRing
      { L' with closedMark := L.mark, mark := false, due := { L'.due with capture := true, detector := true, hook := true } }
    else { L with due := { L.due with start := true } }
  else L

/-- The boundary itself: G increases by 1 modulo 2^32, and each enabled line takes it (R3). -/
def State.boundary (s : State) : State :=
  { s with g := s.g + 1, frame := 0, lines := s.lines.map Line.boundary }

/-- The Timebase has a boundary to take: 40 frames of the global cell have gone (R3). -/
def State.boundaryDue (s : State) : Bool := s.timebase == .running && decide (40 ≤ s.frame)

/-- The boundary, if it is due. -/
def State.boundaryStep (s : State) : State := if s.boundaryDue then s.boundary else s

/-- GLOBAL_CELL_BOUNDARY (R3). Before the 40th frame the event does not occur. -/
def execGlobalCellBoundary (s : State) : Host.Outcome State Fault Refusal :=
  s.take fun s => s.boundaryStep

/-! ### The start boundary (R9) -/

/-- The line's playout and capture start: the first half plays from its sample 0, the first capture half fills, the mark starts clear
and is set by the first frame if a signal is in progress (R94). -/
def Line.start (L : Line) : Line :=
  { L with
    started := true, playing := .first, sent := 0, capFirst := .reset, capSecond := .reset, filling := .first,
    mark := false, closedMark := false, due := { L.due with start := false } }

/-- The start boundary of a line is still to be taken. -/
def Line.startDue (L : Line) : Bool := L.enabled && !L.started && L.due.start

/-- The start boundary, if it is due. -/
def State.startStep (s : State) (l : Fin 4) : State :=
  if (s.line l).startDue then s.setLine l (s.line l).start else s

/-- START_BOUNDARY (R9). -/
def execStartBoundary (l : Fin 4) (s : State) : Host.Outcome State Fault Refusal :=
  s.take fun s => s.startStep l

/-! ### Work still due (R26, log entry 3) -/

/-- The work of one line that the last boundary left, in one fixed order; the manual gives none (R3). -/
def State.settleLine (s : State) (l : Fin 4) : State :=
  (((((s.startStep l).captureStep l).detectorStep l).hookStep l).ringStep l).loadStep l

/-- All work still due is taken before the next frame begins: each boundary's work belongs before it, and a load or capture store is
complete before it is needed (R26). -/
def State.settle (s : State) : State := four.foldl State.settleLine s.boundaryStep

/-! ### The frame (R4, R5, R11, R84) -/

/-- The sample received from line `l`: the 16 bits of HRX timeslot `l`, most significant bit first (R4). -/
def hrxSample (hrx : BitVec 256) (l : Fin 4) : Sample := hrx.extractLsb' (240 - 16 * l.val) 16

/-- The samples received in a frame; timeslots 4..15 of HRX are not sampled (R4). -/
def hrxSamples (hrx : BitVec 256) : Four Sample := ⟨hrxSample hrx 0, hrxSample hrx 1, hrxSample hrx 2, hrxSample hrx 3⟩

/-- The half now playing. -/
def Line.playingHalf (L : Line) : PlayHalf := L.half L.playing

/-- Index in the half of the sample sent as the n-th (R84). -/
def PlayHalf.index (h : PlayHalf) (n : Nat) : Nat :=
  if h.slip < 0 then n + 1 else if 0 < h.slip then min n 39 else n

/-- The sample sent as the n-th (R84). -/
def PlayHalf.sampleAt (h : PlayHalf) (n : Nat) : Sample := h.samples.getD (h.index n) 0

/-- The playing position of the n-th (R84). -/
def PlayHalf.positionAt (h : PlayHalf) (n : Nat) : Word32 := h.base + BitVec.ofNat 32 (h.index n)

/-- How many samples the half plays: 40 + slip (R84). -/
def PlayHalf.length (h : PlayHalf) : Nat := (40 + h.slip).toNat

/-- The sample line ℓ's timeslot carries in a frame (R5). -/
def Line.sends (L : Line) : Sample :=
  if L.enabled ∧ L.started then L.playingHalf.sampleAt L.sent else 0

/-- A received sample joins the filling capture half; the first one notes the playing position sent in the same frame (R11). -/
def Line.receive (L : Line) (x : Sample) : Line :=
  let h := L.fillingHalf
  let r := if h.samples.isEmpty then L.playingHalf.positionAt L.sent else h.reference
  L.setCapture L.filling { h with samples := h.samples ++ [x], reference := r }

/-- A sample has been sent; after the half's last one the line takes a half boundary: the waiting half plays from the next frame and the
load of the freed half is due (R10, R84). -/
def Line.send (L : Line) : Line :=
  if L.playingHalf.length ≤ L.sent + 1 then
    { L with playing := L.playing.other, sent := 0, due := { L.due with load := true } }
  else { L with sent := L.sent + 1 }

/-- One frame of one line (R5): the HOOK pin takes its level; a started line receives and sends, with its signalling mark set if what
sets it is in progress (R94). -/
def Line.frame (x : Sample) (pin : Bool) (L : Line) : Line :=
  let L := { L with hookPin := pin }
  if L.enabled ∧ L.started then { (L.receive x).send with mark := L.mark || L.signalling } else L

/-- One frame of the part with the samples received in it (R4). -/
def State.frameStep (hrx : Four Sample) (hook : Four Bool) (s : State) : State :=
  { s with
    htx := s.lines.map Line.sends
    lines := ⟨s.lines.a0.frame hrx.a0 hook.a0, s.lines.a1.frame hrx.a1 hook.a1, s.lines.a2.frame hrx.a2 hook.a2,
      s.lines.a3.frame hrx.a3 hook.a3⟩
    frame := s.frame + 1 }

/-- HIGHWAY_FRAME (R4): while the Timebase is HELD there is no frame (R1). -/
def execHighwayFrame (hrx : BitVec 256) (hook : Four Bool) (s : State) : Host.Outcome State Fault Refusal :=
  s.take fun s => if s.timebase = .running then s.settle.frameStep (hrxSamples hrx) hook else s

end Sys2Proof.Machine
end

