-- ==== Sys2Proof/Machine/Dispatch.lean ====
section
/-! DEFINITION. One arm per command: each calls its meaning. -/

namespace Sys2Proof.Machine

def exec (i : Instr) (s : State) : Host.Outcome State Fault Refusal :=
  match i with
  | .deviceReset low cFrame mFrame => Sys2Proof.Machine.execDeviceReset low s cFrame mFrame
  | .startTimebase => Sys2Proof.Machine.execStartTimebase s
  | .highwayFrame hrx hook => Sys2Proof.Machine.execHighwayFrame hrx hook s
  | .globalCellBoundary => Sys2Proof.Machine.execGlobalCellBoundary s
  | .startBoundary l => Sys2Proof.Machine.execStartBoundary l s
  | .configureLine line playBase playLen capBase capLen => Sys2Proof.Machine.execConfigureLine line playBase playLen capBase capLen s
  | .enableLine line => Sys2Proof.Machine.execEnableLine line s
  | .disableLine line => Sys2Proof.Machine.execDisableLine line s
  | .setMode line mode => Sys2Proof.Machine.execSetMode line mode s
  | .setSupervision line control attenuation => Sys2Proof.Machine.execSetSupervision line control attenuation s
  | .writeTones start count fields => Sys2Proof.Machine.execWriteTones start count fields s
  | .writeProgram record control repeats count segments => Sys2Proof.Machine.execWriteProgram record control repeats count segments s
  | .startSignal line record level => Sys2Proof.Machine.execStartSignal line record level s
  | .stopSignal line level => Sys2Proof.Machine.execStopSignal line level s
  | .loadCid line type length payload => Sys2Proof.Machine.execLoadCid line type length payload s
  | .cidAlert line entry => Sys2Proof.Machine.execCidAlert line entry s
  | .ringStart line on off bursts cid delay => Sys2Proof.Machine.execRingStart line on off bursts cid delay s
  | .ringStop line => Sys2Proof.Machine.execRingStop line s
  | .readEvents maximum => Sys2Proof.Machine.execReadEvents maximum s
  | .openDeposit mask source time control gain => Sys2Proof.Machine.execOpenDeposit mask source time control gain s
  | .depositData count samples => Sys2Proof.Machine.execDepositData count samples s
  | .commitDeposit writes => Sys2Proof.Machine.execCommitDeposit s writes
  | .abandonDeposit => Sys2Proof.Machine.execAbandonDeposit s
  | .fillCells mask source time control gain writes => Sys2Proof.Machine.execFillCells mask source time control gain s writes
  | .loadFillPattern count samples => Sys2Proof.Machine.execLoadFillPattern count samples s
  | .setPlayout line values => Sys2Proof.Machine.execSetPlayout line values s
  | .realign line slip control => Sys2Proof.Machine.execRealign line slip control s
  | .realignWithClear line slip control => Sys2Proof.Machine.execRealignWithClear line slip control s
  | .captureRead line maximum => Sys2Proof.Machine.execCaptureRead line maximum s
  | .readAndClearStatistics line => Sys2Proof.Machine.execReadAndClearStatistics line s
  | .lineStatus link line => Sys2Proof.Machine.execLineStatus link line s
  | .readLinkStatus link => Sys2Proof.Machine.execReadLinkStatus link s
  | .clearLinkStatus link => Sys2Proof.Machine.execClearLinkStatus link s
  | .setIrqMode link mode => Sys2Proof.Machine.execSetIrqMode link mode s
  | .unknownCode link code => Sys2Proof.Machine.execUnknownCode link code s
  | .truncatedFrame link code => Sys2Proof.Machine.execTruncatedFrame link code s
  | .load l => Sys2Proof.Machine.execLoad l s
  | .starve l => Sys2Proof.Machine.execStarve l s
  | .windowClose l => Sys2Proof.Machine.execWindowClose l s
  | .signalDone l => Sys2Proof.Machine.execSignalDone l s
  | .alertEnd l => Sys2Proof.Machine.execAlertEnd l s
  | .cidNoAck l => Sys2Proof.Machine.execCidNoAck l s
  | .settleEnd l => Sys2Proof.Machine.execSettleEnd l s
  | .cidSent l => Sys2Proof.Machine.execCidSent l s
  | .captureStore l => Sys2Proof.Machine.execCaptureStore l s
  | .mirqPulse periods => Sys2Proof.Machine.execMirqPulse periods s
  | .toneDetectorStep l => Sys2Proof.Machine.execToneDetectorStep l s
  | .digit l => Sys2Proof.Machine.execDigit l s
  | .digitEnd l => Sys2Proof.Machine.execDigitEnd l s
  | .faxCalling l => Sys2Proof.Machine.execFaxCalling l s
  | .faxAnswer l direction => Sys2Proof.Machine.execFaxAnswer l direction s
  | .hookSample l => Sys2Proof.Machine.execHookSample l s
  | .offHook l => Sys2Proof.Machine.execOffHook l s
  | .onHook l => Sys2Proof.Machine.execOnHook l s
  | .pulseDigit l => Sys2Proof.Machine.execPulseDigit l s
  | .burstEnd l => Sys2Proof.Machine.execBurstEnd l s
  | .burstBegin l => Sys2Proof.Machine.execBurstBegin l s
  | .cidSend l => Sys2Proof.Machine.execCidSend l s
  | .cirqPulse periods => Sys2Proof.Machine.execCirqPulse periods s

end Sys2Proof.Machine
end

