-- ==== Sys2Proof/Safety.lean ====
section
/-! DEFINITION. What holds of the part at all times: the laws the manual states of its state, as predicates of a state, and what counts as
a safe step. -/

namespace Sys2Proof.Machine

/-! ### The Sample Store -/

/-- The store is in its canonical form: cell numbers 0..1023, rising, no entry equal to a reset cell (R15). -/
def State.StoreLaw (s : State) : Prop := s.store.wf = true

/-- A playout slot's source set and kinds are empty exactly when the slot is EMPTY, and its samples are then 0 (R20). -/
def StoreCell.SlotLaw (c : StoreCell) : Prop :=
  ∀ r, c.info = .slot r →
    (r.state = .empty ↔ r.sources = Four.all false) ∧ (r.state = .empty ↔ r.kinds = ⟨false, false⟩) ∧
      (r.state = .empty → c.samples = silence)

/-- Every store cell that holds a slot obeys R20. -/
def State.SlotLaw (s : State) : Prop := ∀ a, (s.store.read a).SlotLaw

/-! ### The Partition Table -/

/-- The lengths of a line's entries are in their ranges, the entries are present together, and an ENABLED line has them (R7, R17). -/
def Line.RingLaw (L : Line) : Prop :=
  L.playRing.isSome = L.capRing.isSome ∧ (L.enabled = true → L.playRing.isSome = true) ∧
    (∀ e, L.playRing = some e → 8 ≤ e.len ∧ e.len ≤ 256 ∧ e.base + e.len ≤ 1024) ∧
      (∀ e, L.capRing = some e → 4 ≤ e.len ∧ e.len ≤ 64 ∧ e.base + e.len ≤ 1024)

/-- Two entries, if both are present, share no cell. -/
def apart (a b : Option RingEntry) : Prop := ∀ x y, a = some x → b = some y → x.disjoint y = true

/-- The configured rings lie within cells 0..1023 and no store cell belongs to two rings (R17). -/
def State.PartitionLaw (s : State) : Prop :=
  (∀ l, (s.line l).RingLaw) ∧ (∀ l, apart (s.line l).playRing (s.line l).capRing) ∧
    ∀ l k, l ≠ k →
      apart (s.line l).playRing (s.line k).playRing ∧ apart (s.line l).playRing (s.line k).capRing ∧
        apart (s.line l).capRing (s.line k).capRing

/-! ### Lines -/

/-- A DISABLED line holds what a disable leaves, and nothing else (R13, R14). -/
def Line.DisabledLaw (L : Line) : Prop := L.enabled = false → L.shutDown = L

/-- A line has at most one foreground and one background context, and never both ACTIVE: a foreground is ACTIVE, and a background is
SUSPENDED exactly while a foreground exists (R112). -/
def Line.ContextLaw (L : Line) : Prop :=
  (∀ c, L.foreground = some c → c.state = .active) ∧
    ∀ c, L.background = some c → (c.state = .suspended ↔ L.foreground.isSome = true)

/-- A Ring Controller that is not IDLE belongs to a line qualified ON-HOOK (R155). -/
def Line.RingTripLaw (L : Line) : Prop := L.offHook = true → L.ring.state = .idle

/-- What belongs to the on-hook CID: while it is scheduled no foreground exists, while it sends its context is the foreground, and in no other
ring state is there one; a ringing has begun a burst (R133, R134, R136, R152). A background is of a program, and a CID is EXCLUSIVE (R114, R134, R137). -/
def Line.CidLaw (L : Line) : Prop :=
  (∀ c, L.background = some c → c.isProgram = true) ∧
  (∀ c, L.foreground = some c → c.isProgram = true ∨ c.output = .exclusive) ∧
    match L.ring.state with
    | .idle => ∀ c, L.foreground = some c → c.isOnHookCid = false
    | .on begun _ =>
      1 ≤ begun ∧ (∀ c, L.foreground = some c → c.isOnHookCid = false) ∧ (begun = 1 → L.ring.cid ≠ none → L.foreground = none)
    | .off begun _ => 1 ≤ begun ∧ ∀ c, L.foreground = some c → c.isOnHookCid = false
    | .cidDelay begun _ _ => 1 ≤ begun ∧ L.foreground = none
    | .cidSend begun _ => 1 ≤ begun ∧ ∃ c, L.foreground = some c ∧ c.isOnHookCid = true

/-- The pending slip lies within −40..+40 (R82). -/
def Line.SlipLaw (L : Line) : Prop := -40 ≤ L.pendingSlip ∧ L.pendingSlip ≤ 40

/-- The indices of a line's rings lie in them, and the unread count is the way from the read index to the write index (R23, R25, R95). -/
def Line.IndexLaw (L : Line) : Prop :=
  L.enabled = true →
    L.hs < L.lp ∧ L.unread ≤ L.lc ∧ L.capRead < L.lc ∧ L.capWrite = (L.capRead + L.unread) % L.lc

/-- Each unread place of an ENABLED line's capture ring holds a capture record (R25, R95). -/
def State.RecordLaw (s : State) : Prop :=
  ∀ l, (s.line l).enabled = true → ∀ k, k < (s.line l).unread → ∃ info,
    (s.store.read ((s.line l).capBase + ((s.line l).capRead + k) % (s.line l).lc)).info = .capture info

/-- The statistics counters are 0..65535 (R89). -/
def Stats.InRange (t : Stats) : Prop :=
  t.late ≤ 65535 ∧ t.early ≤ 65535 ∧ t.duplicate ≤ 65535 ∧ t.concealed ≤ 65535 ∧ t.suppressed ≤ 65535 ∧ t.slipsPlus ≤ 65535 ∧
    t.slipsMinus ≤ 65535 ∧ t.overruns ≤ 65535

/-- The statistics of a line are in range (R89). -/
def Line.StatsLaw (L : Line) : Prop := L.stats.InRange

/-- The anchor depths of an ENABLED line are 1..Lp − 1 and its capture threshold 1..Lc (R8, R85). -/
def Line.DepthLaw (L : Line) : Prop :=
  L.enabled = true →
    1 ≤ L.config.voiceDepth ∧ L.config.voiceDepth + 1 ≤ L.lp ∧ 1 ≤ L.config.faxDepth ∧ L.config.faxDepth + 1 ≤ L.lp ∧
      1 ≤ L.capThreshold ∧ L.capThreshold ≤ L.lc

/-- The bit accumulator of an FSK under way is 0..19 (R129, R130). -/
def Context.FskLaw (c : Context) : Prop :=
  match c.kind with
  | .program _ _ => True
  | .onHookCid f => ∀ x, f = some x → x.accumulator < 20
  | .offHookCid r => ∀ x, r.fsk = some x → x.accumulator < 20

/-- The same of each context of a line. -/
def Line.FskLaw (L : Line) : Prop := (∀ c, L.background = some c → c.FskLaw) ∧ ∀ c, L.foreground = some c → c.FskLaw

/-- Both playout halves and a valid repeat buffer hold 40 samples; a started line's filling capture half holds as many as frames of the
global cell have gone, and the closed half, until it is stored, 40 (R10, R11, R72, R95). -/
def Line.SampleLaw (frame : Nat) (L : Line) : Prop :=
  L.playFirst.samples.length = 40 ∧ L.playSecond.samples.length = 40 ∧ (∀ b, L.repeatBuffer = some b → b.length = 40) ∧
    (L.enabled = true → L.started = true → L.fillingHalf.samples.length = frame ∧
      (L.due.capture = true → L.closedHalf.samples.length = 40)) ∧
    (L.enabled = true → L.started = false → L.due.capture = false ∧ (L.due.start = true → frame = 0))

/-- A law of a line's record, on every line. -/
def State.EachLine (P : Line → Prop) (s : State) : Prop := ∀ l, P (s.line l)

/-- A cell is 40 samples wherever the part holds one: in the store, in the fill pattern, in the write of a commit or fill under way, in the
halves and the repeat buffer of each line (R10, R11, R15, R47, R69, R72). -/
def State.SampleLaw (s : State) : Prop :=
  s.frame ≤ 40 ∧ s.fillPattern.length = 40 ∧ (∀ a, (s.store.read a).samples.length = 40) ∧
    (∀ j, s.job = some j → ∀ c ∈ j.write.cells, c.2.length = 40) ∧ s.EachLine (Line.SampleLaw s.frame)

/-- An ENABLED line in IDLE has every source UNANCHORED and every slot of its ring EMPTY (R34, R71). -/
def State.IdleLaw (s : State) : Prop :=
  ∀ l, (s.line l).enabled = true → (s.line l).playout = .idle →
    (∀ m, (s.line l).anchors.get m = .unanchored) ∧
      ∀ i, i < (s.line l).lp → s.store.read ((s.line l).playBase + i) = StoreCell.reset

/-! ### Queues and buffers -/

/-- The Event Queue holds at most 64 records, of which at most one is OVERFLOW, and an OVERFLOW record is always the newest; a queue of
64 holds one (R179). -/
def QueueLaw (q : List EventRecord) : Prop :=
  (∀ r ∈ q.dropLast, r.isOverflow = false) ∧ q.length ≤ 64 ∧ (q.length = 64 → overflowed q = true)

/-- The deposit buffer never holds more than 40·n samples, and n is 1..8 (R47). -/
def State.DepositLaw (s : State) : Prop :=
  ∀ d, s.deposit = some d → d.samples.length ≤ 40 * d.cells ∧ 1 ≤ d.cells ∧ d.cells ≤ 8

/-- The tone table has 32 entries in range, its cursor is 0..31, at most two fields are staged (R105). -/
def State.ToneLaw (s : State) : Prop :=
  s.tones.length = 32 ∧ s.toneCursor < 32 ∧ s.toneStaging.length ≤ 2 ∧
    ∀ e ∈ s.tones, e.freqA ≤ 3999 ∧ e.freqB ≤ 3999 ∧ e.attenuation ≤ 127

/-- The program table has 16 records of at most 8 segments, each of a tone 0..31 or SILENCE and of 1..4000 cells, and of a repeat count
0..255 (R108). -/
def State.ProgramLaw (s : State) : Prop :=
  s.programs.length = 16 ∧ ∀ p ∈ s.programs, p.segments.length ≤ 8 ∧ p.repeats ≤ 255 ∧
    ∀ g ∈ p.segments, (∀ e, g.tone = some e → e ≤ 31) ∧ 1 ≤ g.duration ∧ g.duration ≤ 4000

/-! ### Safe steps -/

/-- A property of states that every step keeps. -/
def Kept (P : State → Prop) : Prop := ∀ s t, P s → step s = .next t → P t

/-- A command that answers a next state, with what holds of it. -/
def Answers (c : Instr) (s : State) (P : State → Prop) : Prop := ∃ t, exec c s = .next t ∧ P t

/-- The command is no DEVICE RESET. -/
def NoReset (c : Instr) : Prop := ∀ low cFrame mFrame, c ≠ .deviceReset low cFrame mFrame

/-- A frame of the link is heard: RESET is high, no frame under way since a reset is being ignored, and no write of a Media Link request has
lines left to write. -/
def State.Hears (s : State) (k : Link) : Prop :=
  s.resetLow = false ∧ (s.link k).ignoring = false ∧ (k = .media → s.job = none)

/-- The link is heard and the byte names line `l`. -/
def State.Names (s : State) (k : Link) (line : Byte) (l : Fin 4) : Prop := s.Hears k ∧ line.toNat = l.val

/-- The rows that are the load of line `l`, or name a part of it (log entry 4). -/
def loadRows (l : Fin 4) : List Instr :=
  [.load l, .starve l, .windowClose l, .signalDone l, .alertEnd l, .cidNoAck l, .settleEnd l, .cidSent l, .faxAnswer l .remoteEnd]

/-- The state after some commands, each of which answers a next state. -/
def State.taking : List Instr → State → State
  | [], s => s
  | c :: cs, s =>
    match exec c s with
    | .next t => State.taking cs t
    | _ => s

/-- A ring state at a boundary at which no period and no delay runs out (R134, R153, R154). -/
def RingState.counted : RingState → RingState
  | .idle => .idle
  | .on begun remaining => .on begun (remaining - 1)
  | .off begun remaining => .off begun (remaining - 1)
  | .cidDelay begun remaining delay => .cidDelay begun (remaining - 1) (delay - 1)
  | .cidSend begun remaining => .cidSend begun (remaining - 1)

/-- The ring step of line `l` that none of its rows has taken: it counts a cell (log entry 5). -/
def State.countRing (s : State) (l : Fin 4) : State :=
  if (s.line l).ringDue = true then
    s.setLine l { s.line l with
      ring := { (s.line l).ring with state := (s.line l).ring.state.counted }, due := { (s.line l).due with ring := false } }
  else s

/-- The works a frame finds left over on line `l`, taken in its order: a ring step that no row takes any more, because a load has ended the
CID since the boundary, counts a cell in its place (log entries 3 and 5). -/
def State.takingLeft (s : State) (l : Fin 4) : State :=
  ((s.taking
    [.startBoundary l, .captureStore l, .toneDetectorStep l, .hookSample l, .burstEnd l, .burstBegin l, .cidSend l]).countRing l).taking [.load l]

/-- The state when a frame has taken all that is left over: the boundary, and then the works of lines 0 to 3 (log entry 3). -/
def State.takingAll (s : State) : State := four.foldl State.takingLeft (s.taking [.globalCellBoundary])

/-- No boundary is to be taken, and no line has work left from the last one. -/
def State.NothingDue (s : State) : Prop :=
  s.boundaryDue = false ∧ ∀ l, (s.line l).startDue = false ∧ (s.line l).captureDue = false ∧ (s.line l).detectorDue = false ∧
    (s.line l).hookDue = false ∧ (s.line l).ringDue = false ∧ (s.line l).loadDue = false

/-- Every line but `l` is unchanged. -/
def State.OtherLinesKept (s t : State) (l : Fin 4) : Prop := ∀ k, k ≠ l → t.line k = s.line k

/-- What belongs to no line is unchanged: RESET, Timebase, HTX, the fill pattern, the open deposit, the write under way, the tone and program tables, SEQUENCE and
the queue of commands. -/
structure State.PartKept (s t : State) : Prop where
  resetLow : t.resetLow = s.resetLow
  timebase : t.timebase = s.timebase
  g : t.g = s.g
  frame : t.frame = s.frame
  htx : t.htx = s.htx
  fillPattern : t.fillPattern = s.fillPattern
  deposit : t.deposit = s.deposit
  job : t.job = s.job
  tones : t.tones = s.tones
  toneCursor : t.toneCursor = s.toneCursor
  toneStaging : t.toneStaging = s.toneStaging
  programs : t.programs = s.programs
  sequence : t.sequence = s.sequence
  pending : t.pending = s.pending

/-- The request was answered on its link with these bytes, and nothing else of either link changed. -/
def State.Answered (s t : State) (k : Link) (bytes : List Byte) : Prop :=
  t.link k = { s.link k with response := bytes } ∧ ∀ j, j ≠ k → t.link j = s.link j

/-- Every store cell is unchanged. -/
def State.StoreKept (s t : State) : Prop := ∀ a, t.store.read a = s.store.read a

/-- The Event Queue has room for `n` more records without an OVERFLOW record. -/
def State.Room (s : State) (n : Nat) : Prop := overflowed s.events = false ∧ s.events.length + n ≤ 63

/-- A record of line `l`. -/
def recordOf (l : Fin 4) (stamp : Word32) (e : Event) : EventRecord := ⟨e, some l, stamp⟩

/-- The records `es` of line `l`, and no other, were queued with this stamp; CIRQ in PULSE mode owes a pulse for each; the C-link's response is `resp`;
nothing else of the C-link and nothing of the M-link changed (R178, R181). -/
structure State.Queued (s t : State) (l : Fin 4) (stamp : Word32) (es : List Event) (resp : List Byte) : Prop where
  events : t.events = s.events ++ es.map (recordOf l stamp)
  cLink : t.cLink = { s.cLink with irq := { s.cLink.irq with owed := t.cLink.irq.owed }, response := resp }
  level : s.cLink.irq.mode = .level → t.cLink.irq.owed = s.cLink.irq.owed
  pulse : s.cLink.irq.mode = .pulse → s.cLink.irq.owed + es.length ≤ 255 → t.cLink.irq.owed = s.cLink.irq.owed + es.length
  mLink : t.mLink = s.mLink

/-- Everything outside line `l`, the Event Queue and CIRQ is unchanged, and the line's records `es` were queued with this stamp and no request was
answered: the frame of an event the part takes of itself. -/
structure State.OwnEvent (s t : State) (l : Fin 4) (stamp : Word32) (es : List Event) : Prop where
  others : s.OtherLinesKept t l
  part : s.PartKept t
  store : t.store = s.store
  queued : s.Queued t l stamp es s.cLink.response

/-- A C-link request on line `l` that queued `es` and answered `resp`: everything else outside the line is unchanged. -/
structure State.LineRequest (s t : State) (l : Fin 4) (es : List Event) (resp : List Byte) : Prop where
  others : s.OtherLinesKept t l
  part : s.PartKept t
  store : t.store = s.store
  queued : s.Queued t l s.g es resp

/-- The context that a line holds at a level sets the signalling mark (R94): it is ACTIVE and EXCLUSIVE, or an off-hook CID. -/
def Line.Marking (L : Line) : Level → Prop
  | .background => ∃ c, L.background = some c ∧ c.state = .active ∧ c.output = .exclusive
  | .foreground => ∃ c, L.foreground = some c ∧ (c.state = .active ∧ c.output = .exclusive ∨ ∃ r, c.kind = .offHookCid r)

/-- An event away from a boundary takes the line from `L` to `T`: the mark of the cell in progress is set if it was, or if at either level what
sets it begins or ends with the event, and not otherwise (R94, log entry 16). -/
def Line.MarkRule (L T : Line) : Prop := T.mark = true ↔ L.mark = true ∨ ∃ v, ¬(L.Marking v ↔ T.Marking v)

/-- The command is an event of line `l` that leaves its record `L` and queues `es` with the global cell just ended. -/
def State.Turns (s : State) (c : Instr) (l : Fin 4) (L : Line) (es : List Event) : Prop :=
  Answers c s fun t => t.line l = L ∧ s.OwnEvent t l (s.g - 1) es

/-- The frame of a load: of the line, only what the stages of R74 reach; of the store, only the slot at hs; of the rest, only the Event
Queue and CIRQ. -/
structure State.LoadFrame (s t : State) (l : Fin 4) : Prop where
  others : s.OtherLinesKept t l
  part : s.PartKept t
  store : ∀ a, a ≠ (s.line l).playBase + (s.line l).hs → t.store.read a = s.store.read a
  mLink : t.mLink = s.mLink
  response : t.cLink.response = s.cLink.response
  line : t.line l = { s.line l with
    mode := (t.line l).mode, pendingMode := (t.line l).pendingMode, horizon := (t.line l).horizon, hs := (t.line l).hs
    anchors := (t.line l).anchors, playout := (t.line l).playout, run := (t.line l).run, repeatBuffer := (t.line l).repeatBuffer
    pendingSlip := (t.line l).pendingSlip, patience := (t.line l).patience, window := (t.line l).window, stats := (t.line l).stats
    playFirst := (t.line l).playFirst, playSecond := (t.line l).playSecond, background := (t.line l).background
    foreground := (t.line l).foreground, mark := (t.line l).mark, cid := (t.line l).cid, ring := (t.line l).ring
    detector := (t.line l).detector, due := { (s.line l).due with load := false, ring := (t.line l).due.ring } }
  advance : (t.line l).horizon = (s.line l).horizon + 40 ∧ (t.line l).hs = ((s.line l).hs + 1) % (s.line l).lp
  playing : (t.line l).half (s.line l).playing = (s.line l).half (s.line l).playing
  mark : (s.line l).MarkRule (t.line l)

/-- What a load adds to the pending slip `x` that its slip stage has left: nothing unless it closes the window; then, with auto-slip on, what the
window minimum asks for by the water marks, the sum clamped to −40..+40 (R82). -/
def Line.windowed (L : Line) (x : Int) : Int :=
  if L.window.counter + 1 < L.config.window then x
  else max (-40) (min 40 (x +
    match L.config.autoSlip, L.window.minimum with
    | true, some m => if m < L.config.lowWater then 1 else if m ≤ L.config.highWater then 0 else -1
    | _, _ => 0))

/-- A load of `L` whose cell carries no generator output leaves `T`. A pending slip gives the cell one sample of its sign in a quiet cell, or in VOICE once
the patience has run out, with its counter raised and the patience 0; otherwise the cell takes none and the patience rises, or is 0 with no
slip pending. The window then closes or not (R77, R78, R79, R82). -/
def Line.SlipRule (L T : Line) : Prop :=
  ∀ (h : PlayHalf) (may : Prop), h = T.half L.playing.other →
    (may ↔ (∀ x ∈ h.samples, x.toInt.natAbs ≤ L.config.quiet) ∨ (L.mode = .voice ∧ L.config.patience ≤ L.patience)) →
    (0 < L.pendingSlip → may → h.slip = 1 ∧ T.pendingSlip = L.windowed (L.pendingSlip - 1) ∧ T.patience = 0 ∧
      T.stats.slipsPlus = (if L.stats.slipsPlus < 65535 then L.stats.slipsPlus + 1 else 65535) ∧
      T.stats.slipsMinus = L.stats.slipsMinus) ∧
    (L.pendingSlip < 0 → may → h.slip = -1 ∧ T.pendingSlip = L.windowed (L.pendingSlip + 1) ∧ T.patience = 0 ∧
      T.stats.slipsMinus = (if L.stats.slipsMinus < 65535 then L.stats.slipsMinus + 1 else 65535) ∧
      T.stats.slipsPlus = L.stats.slipsPlus) ∧
    (L.pendingSlip = 0 ∨ ¬may → h.slip = 0 ∧ T.pendingSlip = L.windowed L.pendingSlip ∧
      T.stats.slipsPlus = L.stats.slipsPlus ∧ T.stats.slipsMinus = L.stats.slipsMinus ∧
      T.patience = if L.pendingSlip = 0 then 0 else if L.patience < 255 then L.patience + 1 else 255)

/-- The line's playout ring is `p`, and lies within the store. -/
def Line.HasRing (L : Line) (p : RingEntry) : Prop := L.playRing = some p ∧ p.base + p.len ≤ 1024

/-- A load of the line is due, with no pending mode to apply. -/
def State.LoadReady (s : State) (l : Fin 4) : Prop :=
  s.resetLow = false ∧ (s.line l).loadDue = true ∧ (s.line l).pendingMode = none

/-- The class byte of a capture record (R176). -/
def classByte : CellClass → Byte
  | .none => 0x00
  | .other => 0x01
  | .dtmf d => 0x10 + BitVec.ofNat 8 d.val
  | .faxCalling => 0x20
  | .faxAnswer => 0x21

/-- The kind byte and the four detail bytes of an event record, by the table of R178. -/
def eventFields : Event → Byte × List Byte
  | .offHook trip => (0x01, [if trip then 1 else 0, 0, 0, 0])
  | .onHook => (0x02, [0, 0, 0, 0])
  | .flash => (0x03, [0, 0, 0, 0])
  | .pulseDigit n => (0x04, [BitVec.ofNat 8 n, 0, 0, 0])
  | .dialError n => (0x05, [BitVec.ofNat 8 n, 0, 0, 0])
  | .digit d => (0x10, [BitVec.ofNat 8 d.val, 0, 0, 0])
  | .digitEnd d n => (0x11, [BitVec.ofNat 8 d.val, BitVec.ofNat 8 (n / 256), BitVec.ofNat 8 n, 0])
  | .faxCalling => (0x12, [0, 0, 0, 0])
  | .faxAnswer r => (0x13, [if r = .localEnd then 0 else 1, 0, 0, 0])
  | .modeChanged m c => (0x20, [if m = .voice then 0 else 1, if c = .request then 0 else 1, 0, 0])
  | .ringDone c => (0x30, [if c = .count then 0 else 1, 0, 0, 0])
  | .cidSent => (0x31, [0, 0, 0, 0])
  | .cidNoAck => (0x32, [0, 0, 0, 0])
  | .cidAborted c => (0x33, [match c with | .offHook => 0 | .onHook => 1 | .stop => 2 | .fax => 3, 0, 0, 0])
  | .signalDone v => (0x40, [if v = .background then 0 else 1, 0, 0, 0])
  | .signalCancelled v c =>
    (0x41, [if v = .background then 0 else 1,
      match c with | .replaced => 0 | .stop => 1 | .digit => 2 | .onHook => 3 | .fax => 4, 0, 0])
  | .overflow n => (0x7F, [BitVec.ofNat 8 (n / 256), BitVec.ofNat 8 n, 0, 0])

/-- A run of digit cells after a cell of class `c` that qualifies no digit (R160): the digit machine in phase `p` with its run digit and length. -/
def runAfter (p : DigitPhase) (run : Option Digit) (n : Nat) : CellClass → DigitMachine
  | .dtmf d => ⟨p, some d, if run = some d then n + 1 else 1⟩
  | _ => ⟨p, none, 0⟩

/-- The detector after a captured cell of class `c` that leaves the digit machine as given and completes no fax run (R164, R165). -/
def Detector.after (t : Detector) (c : CellClass) (digits : DigitMachine) : Detector :=
  ⟨digits, if c = .faxCalling then min 100 (t.faxCalling + 1) else 0, if c = .faxAnswer then min 60 (t.captureAnswer + 1) else 0,
    t.playoutAnswer⟩

/-- State and kind bytes of a context in LINE STATUS, absent 0 and 0xFF (R177). -/
def contextStatus (c : Option Context) : List Byte :=
  match c with
  | none => [0, 0xFF]
  | some ⟨st, _, .program r _⟩ => [if st = .active then 1 else 2, BitVec.ofNat 8 r]
  | some ⟨st, _, .onHookCid _⟩ => [if st = .active then 1 else 2, 0x40]
  | some ⟨st, _, .offHookCid _⟩ => [if st = .active then 1 else 2, 0x41]

/-- The line has no generator context. -/
def Line.NoContexts (L : Line) : Prop := L.background = none ∧ L.foreground = none

/-! ### Writes -/

/-- The deposit holds all its samples unbroken, so that a commit of it is taken with OK (R53). -/
def Deposit.Complete (d : Deposit) : Prop := d.broken = false ∧ d.samples.length = 40 * d.cells ∧ 1 ≤ d.cells ∧ d.cells ≤ 8

/-- The command is a whole COMMIT DEPOSIT or FILL CELLS for line `l` alone, and `w` is the write it makes there: the cells of the deposit
inverted and scaled, or the fill pattern scaled in each cell of the cell mask (R54, R58, R59, R67). -/
def State.Sends (s : State) (c : Instr) (l : Fin 4) (w : Write) : Prop :=
  (∃ d n, c = .commitDeposit (n + 1) ∧ s.deposit = some d ∧ d.mask = (Four.all false).set l true ∧ d.Complete ∧
    w = ⟨.media, d.source, d.time, d.mix, d.mark,
      (List.range d.cells).map fun i => (i, transform d.invert d.gain ((d.samples.drop (40 * i)).take 40))⟩) ∨
  ∃ mask source control gain n m, c = .fillCells mask source w.time control gain (n + 1) ∧ mask.toNat = 2 ^ l.val ∧
    source.toNat = m.val ∧ control.toNat % 16 ≠ 0 ∧
    w = ⟨.fill, m, w.time, if control.getLsbD 4 then .add else .replace, control.getLsbD 5,
      ((List.range 4).filter fun i => control.getLsbD i).map fun i => (i, s.fillPattern.map (gainStep (gainOf gain)))⟩

/-- The write anchors its source: it is not ANCHORED, or MARK is set (R31). -/
def Line.MustAnchor (L : Line) (w : Write) : Prop := w.mark = true ∨ ∀ o, L.anchors.get w.source ≠ .anchored o

/-- The slot when an anchoring has cleared source `m` from it (R33). -/
def slotWithout (m : Fin 4) (c : StoreCell) : StoreCell :=
  if c.slot.sources.get m = false then c
  else if c.slot.sources = (Four.all false).set m true then ⟨List.replicate 40 0, .slot ⟨.empty, Four.all false, ⟨false, false⟩⟩⟩
  else { c with info := .slot { c.slot with sources := c.slot.sources.set m false } }

/-- The kinds of a slot with the kind of a write added (R21). -/
def kindsWith (k : Kinds) : WriteKind → Kinds
  | .media => ⟨true, k.fill⟩
  | .fill => ⟨k.media, true⟩

/-- The slot that held `c` after a cell of a write is taken to it: an EMPTY slot takes the cell; a FILLED one is replaced under REPLACE, and
under ADD takes the saturated sums from a source it does not hold yet and is a duplicate, unchanged, from one it holds (R21, R60, R62). -/
def slotAfter (w : Write) (cell : List Sample) (c : StoreCell) : StoreCell :=
  if c.slot.state = .empty then ⟨cell, .slot ⟨.filled, (Four.all false).set w.source true, kindsWith ⟨false, false⟩ w.kind⟩⟩
  else if w.mix = .replace then ⟨cell, .slot ⟨.filled, (Four.all false).set w.source true, kindsWith c.slot.kinds w.kind⟩⟩
  else if c.slot.sources.get w.source = true then c
  else ⟨List.zipWith (fun a b => BitVec.ofInt 16 (max (-32768) (min 32767 (a.toInt + b.toInt)))) c.samples cell,
    .slot ⟨.filled, c.slot.sources.set w.source true, kindsWith c.slot.kinds w.kind⟩⟩

/-- A cell that `slotAfter` leaves alone is a duplicate (R62). -/
def isDuplicate (w : Write) (c : StoreCell) : Bool :=
  decide (c.slot.state = .filled) && decide (w.mix = .add) && c.slot.sources.get w.source

/-- The outcome of a commit of `n` cells (R42, R175). -/
def outcomeByte (n late early : Nat) : Byte :=
  if late = n then 2 else if early = n then 4 else if late ≠ 0 then 1 else if early ≠ 0 then 3 else 0

end Sys2Proof.Machine
end

