-- ==== Sys2Proof/WellFormed.lean ====
section
/-! DEFINITION. Which commands can occur: a counted request carries as many items as its count says, or none when the count is refused;
REALIGN and REALIGN_WITH_CLEAR are told apart by the CLEAR flag; an unknown code names no request of its link; only a request with
arguments can be truncated (R171 to R173). Everything the rules themselves refuse is well formed. -/

namespace Sys2Proof

open Machine

/-- A counted list: as long as an accepted count, empty when the count is refused (R171). -/
def counted {α : Type} (ok : Bool) (count : Nat) (items : List α) : Bool :=
  if ok then items.length == count else items.isEmpty

/-- The command can occur. -/
def WellFormed : Instr → Bool
  | .deviceReset _ _ _ => true
  | .startTimebase => true
  | .highwayFrame _ _ => true
  | .globalCellBoundary => true
  | .startBoundary _ => true
  | .configureLine _ _ _ _ _ => true
  | .enableLine _ => true
  | .disableLine _ => true
  | .setMode _ _ => true
  | .setSupervision _ _ _ => true
  | .writeTones start count fields =>
    if toneStartOk start then counted (toneCountOk count) count.toNat fields else count == 0 && fields.isEmpty
  | .writeProgram _ _ _ count segments => counted (segmentCountOk count) count.toNat segments
  | .startSignal _ _ _ => true
  | .stopSignal _ _ => true
  | .loadCid _ _ length payload => counted (cidLengthOk length) length.toNat payload
  | .cidAlert _ _ => true
  | .ringStart _ _ _ _ _ _ => true
  | .ringStop _ => true
  | .readEvents _ => true
  | .openDeposit _ _ _ _ _ => true
  | .depositData count samples => counted (dataCountOk count) count.toNat samples
  | .commitDeposit _ => true
  | .abandonDeposit => true
  | .fillCells _ _ _ _ _ _ => true
  | .loadFillPattern count samples => counted (patternCountOk count) count.toNat samples
  | .setPlayout _ _ => true
  | .realign _ _ control => !control.getLsbD 0
  | .realignWithClear _ _ control => control.getLsbD 0
  | .captureRead _ _ => true
  | .readAndClearStatistics _ => true
  | .lineStatus _ _ => true
  | .readLinkStatus _ => true
  | .clearLinkStatus _ => true
  | .setIrqMode _ _ => true
  | .unknownCode link code => !knownCode link code
  | .truncatedFrame link code => (argumentCodes link).contains code
  | .load _ => true
  | .starve _ => true
  | .windowClose _ => true
  | .signalDone _ => true
  | .alertEnd _ => true
  | .cidNoAck _ => true
  | .settleEnd _ => true
  | .cidSent _ => true
  | .captureStore _ => true
  | .mirqPulse _ => true
  | .toneDetectorStep _ => true
  | .digit _ => true
  | .digitEnd _ => true
  | .faxCalling _ => true
  | .faxAnswer _ _ => true
  | .hookSample _ => true
  | .offHook _ => true
  | .onHook _ => true
  | .pulseDigit _ => true
  | .burstEnd _ => true
  | .burstBegin _ => true
  | .cidSend _ => true
  | .cirqPulse _ => true

end Sys2Proof
end

