-- ==== Sys2Proof/Certificates/Slice0/Obligations.lean ====
section
/-! DEFINITION. The statements for the provers. Each docstring names the rule of spec/ the statement rests on. -/

open Sys2Proof Sys2Proof.Machine

/-! ### The machine and its reset -/

/-- The block takes the command at the front of its queue and runs it on the queue's rest; on an empty queue it idles (the model's choice, log
entries 19 and 20). -/
def Obligations.StepTakesFrontCommand : Prop :=
  (∀ (c : Instr) (q : List Instr) (s : State), s.pending = c :: q → step s = exec c (s.withPending q)) ∧
    ∀ s : State, s.pending = [] → step s = .next s

/-- Every command answers a next state in every state and leaves the queue of commands alone: nothing faults and nothing is refused. While
RESET is low the part takes no request and nothing takes place (R1). The model's choices, of which 1.1 says nothing: that a row out of place
answers too and has no effect (log entry 2), an unknown or truncated code that cannot occur likewise (log entry 9); the queue itself (log
entries 19 and 20); that RESET stays low until a DEVICE RESET whose operand says otherwise (log entry 6). -/
def Obligations.EveryCommandAnswers : Prop :=
  (∀ (c : Instr) (s : State), ∃ t, exec c s = .next t ∧ t.pending = s.pending) ∧
    ∀ (c : Instr) (s : State), s.resetLow = true → NoReset c → exec c s = .next s

/-- The rows that name a part of the load, of the detector step, of the hook sample or of the ring step: each occurs under the condition given
here and is then that whole event, and has no effect otherwise (the model's reading, log entries 2 and 4). The conditions are the rules': the
load that enters STARVED (R75), closes the window (R82), renders a program's last cell (R116, R117), the 16th ALERT (R138), the 32nd
AWAIT-ACK (R139), the 10th SETTLE (R140) or the last FSK cell (R132), or completes a playout fax-answer run (R165); the detector step that
qualifies (R160) or releases a digit (R161) or completes a fax run (R164, R165); the hook sample that qualifies OFF-HOOK (R144) or ON-HOOK
(R147) or completes a dialled digit (R146); the ring step at which a period or the CID delay has run out (R134, R153, R154). -/
def Obligations.PartEventsAreTheWholeEvent : Prop :=
  ∀ (s : State) (l : Fin 4), (s.line l).CidLaw → s.resetLow = false →
    (∀ (c : Instr) (occurs : Prop),
      (c = .starve l ∧ (occurs ↔ (s.loadInput l).slot.filled = false ∧ (s.line l).playout = .running ∧
        (s.line l).config.starve ≤ min 65535 ((s.line l).run + 1))) ∨
      (c = .windowClose l ∧ (occurs ↔ (s.line l).config.window ≤ (s.line l).window.counter + 1)) ∨
      (c = .signalDone l ∧ (occurs ↔ (s.line l).pendingMode = none ∧ ∃ v x r run n,
        (s.line l).activeContext = some (v, x) ∧ x.kind = .program r run ∧
        (run.cellsLeft = 1 ∨ run.cellsLeft = 0 ∧ ((programAt s.programs r).segments.getD run.segment ⟨none, 0⟩).duration ≤ 1) ∧
        (programAt s.programs r).segments.length ≤ run.segment + 1 ∧ run.repeats = some n ∧ n ≤ 1)) ∨
      (c = .alertEnd l ∧ (occurs ↔ (s.line l).pendingMode = none ∧
        ∃ st m e tone fsk, (s.line l).foreground = some ⟨st, m, .offHookCid ⟨e, .alert, 15, tone, fsk⟩⟩)) ∨
      (c = .cidNoAck l ∧ (occurs ↔ (s.line l).pendingMode = none ∧
        ∃ st m e tone fsk, (s.line l).foreground = some ⟨st, m, .offHookCid ⟨e, .awaitAck, 31, tone, fsk⟩⟩)) ∨
      (c = .settleEnd l ∧ (occurs ↔ (s.line l).pendingMode = none ∧
        ∃ st m e tone fsk, (s.line l).foreground = some ⟨st, m, .offHookCid ⟨e, .settle, 9, tone, fsk⟩⟩)) ∨
      (c = .cidSent l ∧ (occurs ↔ (s.line l).pendingMode = none ∧ ∃ v x, (s.line l).activeContext = some (v, x) ∧
        ((∃ f, x.kind = .onHookCid f ∧ (((s.line l).fskOf f).after true (s.line l).cidMessage 40).done true (s.line l).cidMessage = true) ∨
          ∃ e k tone f, x.kind = .offHookCid ⟨e, .send, k, tone, f⟩ ∧
            (((s.line l).fskOf f).after false (s.line l).cidMessage 40).done false (s.line l).cidMessage = true))) ∨
      (c = .faxAnswer l .remoteEnd ∧ (s.line l).loadDue = true ∧ (occurs ↔ (s.line l).detector.playoutAnswer = 59 ∧
        ∃ t, exec (.load l) s = .next t ∧ (t.line l).detector.playoutAnswer = 60)) →
      (occurs → exec c s = exec (.load l) s) ∧ (¬occurs → exec c s = .next s)) ∧
    (∀ (c : Instr) (occurs : Prop),
      (c = .digit l ∧ (occurs ↔ (s.line l).mode = .voice ∧ (s.line l).detector.digits.phase = .seeking ∧
        ∃ d, (s.line l).closedHalf.cls = .dtmf d ∧ (s.line l).detector.digits.runDigit = some d ∧
          (s.line l).detector.digits.runLength = 7)) ∨
      (c = .digitEnd l ∧ (occurs ↔ (s.line l).mode = .voice ∧ ∃ d n taken,
        (s.line l).detector.digits.phase = .held d n 2 taken ∧ (s.line l).closedHalf.cls ≠ .dtmf d)) ∨
      (c = .faxCalling l ∧ (occurs ↔ (s.line l).mode = .voice ∧ (s.line l).closedHalf.cls = .faxCalling ∧
        (s.line l).detector.faxCalling = 99)) ∨
      (c = .faxAnswer l .localEnd ∧ (occurs ↔ (s.line l).mode = .voice ∧ (s.line l).closedHalf.cls = .faxAnswer ∧
        (s.line l).detector.captureAnswer = 59)) →
      (occurs → exec c s = exec (.toneDetectorStep l) s) ∧ (¬occurs → exec c s = .next s)) ∧
    (∀ (c : Instr) (occurs : Prop),
      (c = .offHook l ∧ (occurs ↔ (s.line l).hook.state = .onhook 3 ∧ (s.line l).hookPin = true)) ∨
      (c = .onHook l ∧ (occurs ↔ ∃ ret, (s.line l).hook.state = .brk 180 ret ∧ (s.line l).hookPin = false)) ∨
      (c = .pulseDigit l ∧ (occurs ↔ (s.line l).hook.state = .dialing 59 ∧ (s.line l).hookPin = true)) →
      (occurs → exec c s = exec (.hookSample l) s) ∧ (¬occurs → exec c s = .next s)) ∧
    (∀ (c : Instr) (occurs : Prop),
      (c = .burstEnd l ∧ (occurs ↔ ∃ begun remaining, (s.line l).ring.state = .on begun remaining ∧ remaining ≤ 1)) ∨
      (c = .burstBegin l ∧ (occurs ↔ ∃ begun remaining, (s.line l).ring.state = .off begun remaining ∧ remaining ≤ 1)) ∨
      (c = .cidSend l ∧ (occurs ↔ ∃ begun remaining delay, (s.line l).ring.state = .cidDelay begun remaining delay ∧ delay ≤ 1)) →
      (occurs → (s.line l).ringDue = true →
        exec c s = .next (s.commitLine l (s.g - 1) (s.line l).takeRing)) ∧
      (¬occurs ∨ (s.line l).ringDue = false → exec c s = .next s)) ∧
    ((s.line l).loadDue = false → ∀ c ∈ loadRows l, exec c s = .next s) ∧
    ((s.line l).detectorDue = false → exec (.toneDetectorStep l) s = .next s) ∧
    ((s.line l).hookDue = false → exec (.hookSample l) s = .next s) ∧
    ((s.line l).captureDue = false → exec (.captureStore l) s = .next s)

/-- DEVICE RESET from any state: the state after reset, with no event queued, interrupts and RINGEN deasserted, the highway not driven
(R1, R15, R16, R28, R47, R104, R183). CSDO and MSDO are high impedance while RESET is low or chip select is high (R1), and in a frame send
0 while the code byte and the arguments come in, then the response, then 0, each byte most significant bit first (R171). The model's choices in `State.reset`: HTX,
halves and responses (log entry 26), the timeline of a DISABLED line (log entry 13), HOOK pins low (log entry 1); and the operands, which say
whether RESET stays low and whether a frame is under way when it returns high, and the queue of commands, which stays (log entries 6
and 19). -/
def Obligations.DeviceResetRestoresEverything : Prop :=
  (∀ (low cFrame mFrame : Bool) (s : State), Answers (.deviceReset low cFrame mFrame) s fun t =>
    t = { State.reset with
      resetLow := low, cLink := { State.reset.cLink with ignoring := cFrame }, mLink := { State.reset.mLink with ignoring := mFrame }
      pending := s.pending } ∧
    t.timebase = .held ∧ t.g = 0 ∧ t.events = [] ∧ t.deposit = none ∧ t.job = none ∧ t.mirq = false ∧ t.cirq = false ∧
    t.sequence = false ∧ t.cLink.frame = false ∧ t.cLink.unknown = false ∧ t.mLink.frame = false ∧ t.mLink.unknown = false ∧
    (∀ l, (t.line l).enabled = false ∧ (t.line l).mode = .voice ∧ (t.line l).pendingMode = none ∧ (t.line l).autoFax = false ∧
      (t.line l).playRing = none ∧ (t.line l).capRing = none ∧ (∀ m, (t.line l).anchors.get m = .unanchored) ∧
      (t.line l).NoContexts ∧ (t.line l).ringen = false ∧ (t.line l).offHook = false ∧ (t.line l).pendingSlip = 0 ∧
      (t.line l).cidAttenuation = 10 ∧ (t.line l).capThreshold = 2 ∧ (t.line l).config = ⟨8, 24, 40, 20, 40, 160, 200, 256, -2, true, 0⟩) ∧
    (∀ a, t.store.read a = ⟨List.replicate 40 0, .slot ⟨.empty, Four.all false, ⟨false, false⟩⟩⟩) ∧
    t.hclkRuns = false ∧ ∀ n, t.htxBit n = none ∧ t.hfs n = false) ∧
  ∀ (s : State) (k : Link) (arguments n : Nat),
    (∀ selected, s.resetLow = true ∨ selected = false → s.outputByte k selected arguments n = none) ∧
    (s.resetLow = false →
      (n < arguments → s.outputByte k true arguments n = some 0) ∧
      (∀ b, (s.link k).response[n]? = some b → s.outputByte k true arguments (arguments + n) = some b) ∧
      ((s.link k).response.length ≤ n → s.outputByte k true arguments (arguments + n) = some 0)) ∧
    ∀ selected i, i < 8 →
      s.outputBit k selected arguments (8 * n + i) = (s.outputByte k selected arguments n).map fun b => b.getMsbD i

/-! ### Timebase and highway -/

/-- START TIMEBASE: HELD becomes RUNNING with OK, G and the frame count as they were; in RUNNING it has no effect (R2).
GLOBAL CELL BOUNDARY at the end of the 40th frame: G rises by 1 modulo 2^32, and each started line closes its filling capture half, opens
the other, hands over its signalling mark, counts its ring period and CID delay, and has its boundary work to take (R3, R9, R11, R94, R134,
R153, R154); a DISABLED line takes nothing; before the 40th frame, and while HELD, there is no boundary. START BOUNDARY: playout starts with
sample 0 of the first half, capture with an empty first half (R9). The model's choices: that a ring step which changes the ring state is
left as a work of its own, the ring as it was (log entry 5), the flags of works left (log entry 2), that the class of the closed half is
kept with it (log entry 10), that a mark begins clear and is set by the frames of its cell (log entry 16), and the reference and class of
an empty half (log entry 26). -/
def Obligations.TimebaseStartsAndAdvances : Prop :=
  (∀ s : State, s.Hears .control →
    exec .startTimebase s = .next (({ s with timebase := .running }).answer .control .ok []) ∧
    (s.timebase = .running → exec .startTimebase s = .next (s.answer .control .ok []))) ∧
  (∀ s : State, s.resetLow = false →
    (s.timebase = .running → 40 ≤ s.frame → Answers .globalCellBoundary s fun t =>
      t = { s with g := s.g + 1, frame := 0, lines := t.lines } ∧
      ∀ l, ((s.line l).enabled = false → t.line l = s.line l) ∧
        ((s.line l).enabled = true → (s.line l).started = false →
          t.line l = { s.line l with due := { (s.line l).due with start := true } }) ∧
        ((s.line l).enabled = true → (s.line l).started = true →
          t.line l = { s.line l with
            capFirst := (t.line l).capFirst, capSecond := (t.line l).capSecond, filling := (s.line l).filling.other
            closedMark := (s.line l).mark, mark := false, ring := { (s.line l).ring with state := (t.line l).ring.state }
            due := { (s.line l).due with capture := true, detector := true, hook := true, ring := (t.line l).due.ring } } ∧
          (t.line l).closedHalf =
            ⟨(s.line l).fillingHalf.samples, (s.line l).fillingHalf.reference, classify (s.line l).fillingHalf.samples⟩ ∧
          (t.line l).fillingHalf.samples = [] ∧
          ((s.line l).ring.state = .idle → (t.line l).ring = (s.line l).ring ∧ (t.line l).due.ring = (s.line l).due.ring) ∧
          (∀ begun remaining, (s.line l).ring.state = .on begun remaining →
            (2 ≤ remaining → (t.line l).ring.state = .on begun (remaining - 1)) ∧
            (remaining ≤ 1 → (t.line l).ring = (s.line l).ring ∧ (t.line l).due.ring = true)) ∧
          (∀ begun remaining, (s.line l).ring.state = .off begun remaining →
            (2 ≤ remaining → (t.line l).ring.state = .off begun (remaining - 1)) ∧
            (remaining ≤ 1 → (t.line l).ring = (s.line l).ring ∧ (t.line l).due.ring = true)) ∧
          (∀ begun remaining delay, (s.line l).ring.state = .cidDelay begun remaining delay →
            (2 ≤ delay → (t.line l).ring.state = .cidDelay begun (remaining - 1) (delay - 1)) ∧
            (delay ≤ 1 → (t.line l).ring = (s.line l).ring ∧ (t.line l).due.ring = true)) ∧
          (∀ begun remaining, (s.line l).ring.state = .cidSend begun remaining →
            (t.line l).ring.state = .cidSend begun (remaining - 1)))) ∧
    (s.timebase = .held ∨ s.frame < 40 → exec .globalCellBoundary s = .next s)) ∧
  ∀ (s : State) (l : Fin 4), s.resetLow = false → (s.line l).enabled = true → (s.line l).started = false →
    (s.line l).due.start = true → exec (.startBoundary l) s = .next (s.setLine l { s.line l with
      started := true, playing := .first, sent := 0, capFirst := ⟨[], 0, .none⟩, capSecond := ⟨[], 0, .none⟩, filling := .first
      mark := false, closedMark := false, due := { (s.line l).due with start := false } })

/-- HIGHWAY FRAME. While HELD there is no frame (R1). With nothing due, timeslots 0..3 of HTX carry 0 for a DISABLED or not yet started line
and the playing half's sample by the table of R84 for a started one, most significant bit first, with HFS high in the first bit period and
timeslots 4..15 high impedance (R4, R5); the 16 bits of HRX timeslot l are line l's received sample, and timeslots 4..15 are not sampled
(R4); a started line stores it in its filling capture half, whose first sample notes the playing position sent in the same frame; after 40 +
slip samples the halves change and a load is due; a signal in progress sets the mark (R10, R11, R84, R94). The model's choices: the HOOK
pins take their levels with the frame (log entry 1); a frame that finds the boundary or works of lines left over takes them first, in one
order, and then does what it does with nothing due (log entry 3); a ring step that none of its rows takes any more, because a load has ended
the CID since the boundary, then counts a cell (log entry 5). -/
def Obligations.HighwayFrameSendsAndCaptures : Prop :=
  ∀ (s : State) (hrx : BitVec 256) (hook : Four Bool), s.resetLow = false →
    (s.timebase = .held → exec (.highwayFrame hrx hook) s = .next s) ∧
    (∀ hrx' : BitVec 256, (∀ i, i < 64 → hrx'.getMsbD i = hrx.getMsbD i) →
      exec (.highwayFrame hrx' hook) s = exec (.highwayFrame hrx hook) s) ∧
    (s.timebase = .running → s.takingAll.NothingDue ∧ s.takingAll.timebase = .running ∧
      exec (.highwayFrame hrx hook) s = exec (.highwayFrame hrx hook) s.takingAll) ∧
    (s.timebase = .running → s.NothingDue → Answers (.highwayFrame hrx hook) s fun t =>
      t = { s with frame := s.frame + 1, htx := t.htx, lines := t.lines } ∧
      (∀ i, (t.hfs i = true ↔ i = 0) ∧ (64 ≤ i → t.htxBit i = none)) ∧
      ∀ l : Fin 4,
        (∀ i, i < 16 → t.htxBit (16 * l.val + i) = some ((t.htx.get l).getMsbD i)) ∧
        ((s.line l).enabled = false ∨ (s.line l).started = false →
          t.htx.get l = 0 ∧ t.line l = { s.line l with hookPin := hook.get l }) ∧
        ((s.line l).enabled = true → (s.line l).started = true →
          t.line l = { s.line l with
            hookPin := hook.get l, capFirst := (t.line l).capFirst, capSecond := (t.line l).capSecond
            playing := (t.line l).playing, sent := (t.line l).sent, mark := (s.line l).mark || (s.line l).signalling
            due := { (s.line l).due with load := (t.line l).due.load } } ∧
          (∃ x : Sample, (∀ i, i < 16 → x.getMsbD i = hrx.getMsbD (16 * l.val + i)) ∧
            (t.line l).fillingHalf.samples = (s.line l).fillingHalf.samples ++ [x]) ∧
          (t.line l).closedHalf = (s.line l).closedHalf ∧
          ((s.line l).fillingHalf.samples ≠ [] → (t.line l).fillingHalf.reference = (s.line l).fillingHalf.reference) ∧
          (∀ n, ((s.line l).playingHalf.slip = 0 ∧ n = (s.line l).sent) ∨
              ((s.line l).playingHalf.slip = -1 ∧ n = (s.line l).sent + 1) ∨
              ((s.line l).playingHalf.slip = 1 ∧ n = min (s.line l).sent 39) →
            t.htx.get l = (s.line l).playingHalf.samples.getD n 0 ∧
            ((s.line l).fillingHalf.samples = [] →
              (t.line l).fillingHalf.reference = (s.line l).playingHalf.base + BitVec.ofNat 32 n)) ∧
          (40 + (s.line l).playingHalf.slip ≤ (s.line l).sent + 1 →
            (t.line l).playing = (s.line l).playing.other ∧ (t.line l).sent = 0 ∧ (t.line l).due.load = true) ∧
          ((s.line l).sent + 1 < 40 + (s.line l).playingHalf.slip →
            (t.line l).playing = (s.line l).playing ∧ (t.line l).sent = (s.line l).sent + 1 ∧ (t.line l).due.load = false)))

/-! ### Lines and the partition table -/

/-- A line number above 3 is refused RANGE by every request that names a line, and nothing else changes (R7, R12, R17, R85, R87, R90, R98,
R113, R120, R127, R137, R152, R156, R167, R168, R177). -/
def Obligations.LineAboveThreeRefused : Prop :=
  ∀ (s : State) (line : Byte), s.Hears .control → s.Hears .media → 4 ≤ line.toNat →
    (∀ a b c d, exec (.configureLine line a b c d) s = .next (s.refuse .control .range)) ∧
    exec (.enableLine line) s = .next (s.refuse .control .range) ∧
    exec (.disableLine line) s = .next (s.refuse .control .range) ∧
    (∀ m, exec (.setMode line m) s = .next (s.refuse .control .range)) ∧
    (∀ a b, exec (.setSupervision line a b) s = .next (s.refuse .control .range)) ∧
    (∀ a b, exec (.startSignal line a b) s = .next (s.refuse .control .range)) ∧
    (∀ a, exec (.stopSignal line a) s = .next (s.refuse .control .range)) ∧
    (∀ type length payload, WellFormed (.loadCid line type length payload) = true →
      exec (.loadCid line type length payload) s = .next (s.refuse .control .range)) ∧
    (∀ a, exec (.cidAlert line a) s = .next (s.refuse .control .range)) ∧
    (∀ a b c d e, exec (.ringStart line a b c d e) s = .next (s.refuse .control .range)) ∧
    exec (.ringStop line) s = .next (s.refuse .control .range) ∧
    (∀ v, exec (.setPlayout line v) s = .next (s.refuse .media .range)) ∧
    (∀ a b, exec (.realign line a b) s = .next (s.refuse .media .range)) ∧
    (∀ a b, exec (.realignWithClear line a b) s = .next (s.refuse .media .range)) ∧
    (∀ a, exec (.captureRead line a) s = .next (s.refuse .media .range)) ∧
    exec (.readAndClearStatistics line) s = .next (s.refuse .media .range) ∧
    ∀ k, exec (.lineStatus k line) s = .next (s.refuse k .range)

/-- CONFIGURE LINE on a DISABLED line with rings that fit, overlap neither each other nor another line's entries replaces both entries; with
both lengths 0 it makes them absent; an ENABLED line is refused STATE. On a DISABLED line it is refused RANGE when, with lengths not both 0, a
length is out of range, a ring goes beyond cell 1023, the two share a cell, or one shares a cell with a present entry of another line; the
Partition Table is then unchanged (R17, R18). -/
def Obligations.ConfigureLineReplacesEntries : Prop :=
  ∀ (s : State) (l : Fin 4) (line : Byte) (pb pl cb : Word16) (cl : Byte), s.Names .control line l →
    ((s.line l).enabled = false → 8 ≤ pl.toNat → pl.toNat ≤ 256 → 4 ≤ cl.toNat → cl.toNat ≤ 64 → pb.toNat + pl.toNat ≤ 1024 →
      cb.toNat + cl.toNat ≤ 1024 → (pb.toNat + pl.toNat ≤ cb.toNat ∨ cb.toNat + cl.toNat ≤ pb.toNat) →
      (∀ k e, k ≠ l → ((s.line k).playRing = some e ∨ (s.line k).capRing = some e) →
        (pb.toNat + pl.toNat ≤ e.base ∨ e.base + e.len ≤ pb.toNat) ∧ (cb.toNat + cl.toNat ≤ e.base ∨ e.base + e.len ≤ cb.toNat)) →
      exec (.configureLine line pb pl cb cl) s = .next
        ((s.setLine l { s.line l with playRing := some ⟨pb.toNat, pl.toNat⟩, capRing := some ⟨cb.toNat, cl.toNat⟩ }).answer
          .control .ok [])) ∧
    ((s.line l).enabled = false → pl = 0 → cl = 0 →
      exec (.configureLine line pb pl cb cl) s = .next
        ((s.setLine l { s.line l with playRing := none, capRing := none }).answer .control .ok [])) ∧
    ((s.line l).enabled = false → pl ≠ 0 ∨ cl ≠ 0 →
      (pl.toNat < 8 ∨ 256 < pl.toNat ∨ cl.toNat < 4 ∨ 64 < cl.toNat) ∨ 1024 < pb.toNat + pl.toNat ∨ 1024 < cb.toNat + cl.toNat ∨
        (pb.toNat < cb.toNat + cl.toNat ∧ cb.toNat < pb.toNat + pl.toNat) ∨
        (∃ k e, k ≠ l ∧ ((s.line k).playRing = some e ∨ (s.line k).capRing = some e) ∧
          (pb.toNat < e.base + e.len ∧ e.base < pb.toNat + pl.toNat ∨ cb.toNat < e.base + e.len ∧ e.base < cb.toNat + cl.toNat)) →
      exec (.configureLine line pb pl cb cl) s = .next (s.refuse .control .range)) ∧
    ((s.line l).enabled = true → exec (.configureLine line pb pl cb cl) s = .next (s.refuse .control .state))

/-- The Partition Table: absent after a device reset; CONFIGURE LINE is refused for an ENABLED line; an entry is changed by CONFIGURE LINE alone,
so by no event and by no DISABLE LINE, and never while its line is ENABLED (R16). -/
def Obligations.EntriesChangeOnlyByConfigure : Prop :=
  (∀ low cFrame mFrame s, Answers (.deviceReset low cFrame mFrame) s fun t => ∀ l, (t.line l).playRing = none ∧ (t.line l).capRing = none) ∧
    (∀ (s : State) (l : Fin 4) (line : Byte) (pb pl cb : Word16) (cl : Byte), s.Names .control line l → (s.line l).enabled = true →
      exec (.configureLine line pb pl cb cl) s = .next (s.refuse .control .state)) ∧
    ∀ (c : Instr) (s t : State) (l : Fin 4), exec c s = .next t → NoReset c →
      ((t.line l).playRing = (s.line l).playRing ∧ (t.line l).capRing = (s.line l).capRing) ∨
        ((s.line l).enabled = false ∧ ∃ line pb pl cb cl, c = .configureLine line pb pl cb cl)

/-- ENABLE LINE: refused STATE while HELD or without entries, no effect on an ENABLED line, and otherwise the timeline of R8 is set up, every
slot EMPTY, the depths and the threshold clamped (R7, R8, R19, R28). The model's choices, to which those rules give no value: the capture halves
before the start boundary (log entry 26), the works left (log entry 2), the mark handed over (log entry 16). -/
def Obligations.EnableLineSetsUpTimeline : Prop :=
  ∀ (s : State) (l : Fin 4) (line : Byte), s.Names .control line l →
    ((s.line l).enabled = true → exec (.enableLine line) s = .next (s.answer .control .ok [])) ∧
    ((s.line l).enabled = false → s.timebase = .held → exec (.enableLine line) s = .next (s.refuse .control .state)) ∧
    ((s.line l).enabled = false → (s.line l).playRing = none ∨ (s.line l).capRing = none →
      exec (.enableLine line) s = .next (s.refuse .control .state)) ∧
    ∀ p c, (s.line l).enabled = false → s.timebase = .running → (s.line l).HasRing p → (s.line l).capRing = some c → s.StoreLaw →
      Answers (.enableLine line) s fun t =>
        t.line l = { s.line l with
          enabled := true, started := false, horizon := 0, hs := 0, anchors := ⟨.unanchored, .unanchored, .unanchored, .unanchored⟩
          playout := .idle, run := 0, repeatBuffer := none, pendingSlip := 0, patience := 0, window := ⟨0, none, none⟩
          playFirst := ⟨List.replicate 40 0, 4294967216, 0⟩, playSecond := ⟨List.replicate 40 0, 4294967256, 0⟩
          playing := .first, sent := 0, capFirst := ⟨[], 0, .none⟩, capSecond := ⟨[], 0, .none⟩, filling := .first
          capWrite := 0, capRead := 0, unread := 0
          config := { (s.line l).config with
            voiceDepth := clampNat 1 (p.len - 1) (s.line l).config.voiceDepth
            faxDepth := clampNat 1 (p.len - 1) (s.line l).config.faxDepth }
          capThreshold := clampNat 1 c.len (s.line l).capThreshold
          mark := false, closedMark := false, hook := ⟨.onhook 0, 0⟩, detector := ⟨⟨.seeking, none, 0⟩, 0, 0, 0⟩, due := Due.none } ∧
        (∀ a, t.store.read a = if p.base ≤ a ∧ a < p.base + p.len then StoreCell.reset else s.store.read a) ∧
        s.OtherLinesKept t l ∧ s.PartKept t ∧ s.Answered t .control [0] ∧ t.events = s.events

/-- DISABLE LINE: the line gives up its timeline and keeps its entries, configuration, threshold, auto-fax, CID attenuation and last set ring
periods; every slot of its ring is EMPTY; no event is queued; a DISABLED line is unchanged (R12, R13, R14). That the horizon, the slot index, the playout state and the halves, to which
R13 gives no value, stand as after a reset is the model's choice (log entries 13 and 26). -/
def Obligations.DisableLineGivesUpTimeline : Prop :=
  ∀ (s : State) (l : Fin 4) (line : Byte), s.Names .control line l →
    ((s.line l).enabled = false → exec (.disableLine line) s = .next (s.answer .control .ok [])) ∧
    ∀ p, (s.line l).enabled = true → (s.line l).HasRing p → s.StoreLaw → Answers (.disableLine line) s fun t =>
      t.line l = { Line.reset with
        playRing := (s.line l).playRing, capRing := (s.line l).capRing, config := (s.line l).config
        capThreshold := (s.line l).capThreshold, autoFax := (s.line l).autoFax, cidAttenuation := (s.line l).cidAttenuation
        hookPin := (s.line l).hookPin
        ring := ⟨.idle, (s.line l).ring.onPeriod, (s.line l).ring.offPeriod, (s.line l).ring.bursts, none⟩ } ∧
      (t.line l).stats = ⟨0, 0, 0, 0, 0, 0, 0, 0⟩ ∧ (t.line l).NoContexts ∧ (t.line l).cid = ⟨none, false⟩ ∧
      (t.line l).ringen = false ∧ (t.line l).mode = .voice ∧ (t.line l).pendingMode = none ∧
      (∀ a, t.store.read a = if p.base ≤ a ∧ a < p.base + p.len then StoreCell.reset else s.store.read a) ∧
      s.OtherLinesKept t l ∧ s.PartKept t ∧ s.Answered t .control [0] ∧ t.events = s.events

/-- SET MODE records what the next load applies, or withdraws it, and is refused STATE on a DISABLED line and RANGE for a mode that is
neither (R168). SET SUPERVISION stores auto-fax and the attenuation, at most 127, in any line state, and answers them; a line above 3 is
refused; after a device reset they are off and 10, and no other command changes them (R167). That the answered control byte is 0 in every bit but its auto-fax bit is
the model's reading (log entry 22). -/
def Obligations.ModeAndSupervisionStored : Prop :=
  (∀ (s : State) (l : Fin 4) (line : Byte), s.Names .control line l →
    (∀ mode, (2 ≤ mode.toNat → exec (.setMode line mode) s = .next (s.refuse .control .range)) ∧
      (mode.toNat < 2 → (s.line l).enabled = false → exec (.setMode line mode) s = .next (s.refuse .control .state))) ∧
    ((s.line l).enabled = true → (s.line l).mode = .voice →
      exec (.setMode line 0) s = .next ((s.setLine l { s.line l with pendingMode := none }).answer .control .ok [0, 0]) ∧
      exec (.setMode line 1) s =
        .next ((s.setLine l { s.line l with pendingMode := some ⟨.fax, .request⟩ }).answer .control .ok [0, 2])) ∧
    ((s.line l).enabled = true → (s.line l).mode = .fax →
      exec (.setMode line 1) s = .next ((s.setLine l { s.line l with pendingMode := none }).answer .control .ok [1, 0]) ∧
      exec (.setMode line 0) s =
        .next ((s.setLine l { s.line l with pendingMode := some ⟨.voice, .request⟩ }).answer .control .ok [1, 1])) ∧
    ∀ control attenuation, exec (.setSupervision line control attenuation) s = .next
      ((s.setLine l { s.line l with
        autoFax := control.getLsbD 0, cidAttenuation := if attenuation.toNat < 128 then attenuation.toNat else 127 }).answer
        .control .ok [if control.getLsbD 0 then 1 else 0, if attenuation.toNat < 128 then attenuation else 127])) ∧
  (∀ (s : State) (line : Byte), s.Hears .control → 4 ≤ line.toNat →
    (∀ mode, exec (.setMode line mode) s = .next (s.refuse .control .range)) ∧
    ∀ control attenuation, exec (.setSupervision line control attenuation) s = .next (s.refuse .control .range)) ∧
  (∀ low cFrame mFrame s, Answers (.deviceReset low cFrame mFrame) s fun t => ∀ l, (t.line l).autoFax = false ∧ (t.line l).cidAttenuation = 10) ∧
  ∀ (c : Instr) (s t : State) (l : Fin 4), exec c s = .next t → NoReset c →
    (∀ line control attenuation, c ≠ .setSupervision line control attenuation) →
    (t.line l).autoFax = (s.line l).autoFax ∧ (t.line l).cidAttenuation = (s.line l).cidAttenuation

/-! ### Signal Generator -/

/-- WRITE TONES with a start index and three fields writes that entry, frequencies held to 3999 and the attenuation to 127, whatever was
staged before, and the cursor goes on; a start that is neither 0..31 nor CONTINUE, and a count above 96, are refused RANGE. Fields may
be divided among requests: a WRITE TONES followed by one with CONTINUE leaves what one request with all the fields leaves (R106). -/
def Obligations.WriteTonesWritesEntries : Prop :=
  (∀ (s : State) (start : Byte) (a b c : Word16), s.Hears .control →
    (start.toNat < 32 → exec (.writeTones start 3 [a, b, c]) s = .next
      (({ s with
        tones := s.tones.set start.toNat ⟨min a.toNat 3999, min b.toNat 3999, min c.toNat 127⟩
        toneStaging := [], toneCursor := (start.toNat + 1) % 32 }).answer .control .ok
        [BitVec.ofNat 8 ((start.toNat + 1) % 32), 0])) ∧
    (∀ count fields, 32 ≤ start.toNat → start ≠ 0xFF → exec (.writeTones start count fields) s = .next (s.refuse .control .range)) ∧
    ∀ count fields, 96 < count.toNat → exec (.writeTones start count fields) s = .next (s.refuse .control .range)) ∧
  ∀ (s : State) (start : Byte) (xs ys : List Word16), s.Hears .control → (start.toNat < 32 ∨ start = 0xFF) →
    xs.length + ys.length ≤ 96 → ∃ t u,
      exec (.writeTones start (BitVec.ofNat 8 xs.length) xs) s = .next t ∧
      exec (.writeTones 0xFF (BitVec.ofNat 8 ys.length) ys) t = .next u ∧
      exec (.writeTones start (BitVec.ofNat 8 (xs.length + ys.length)) (xs ++ ys)) s = .next u ∧
      u = { s with tones := u.tones, toneCursor := u.toneCursor, toneStaging := u.toneStaging, cLink := u.cLink }

/-- WRITE PROGRAM replaces a whole record when no context refers to it, and is refused IN USE when one does; so a record that a context
of any line refers to is changed by no command but a device reset (R109). -/
def Obligations.WriteProgramReplacesFreeRecord : Prop :=
  (∀ (s : State) (record control repeats count : Byte) (segments : List RawSegment), s.Hears .control → record.toNat ≤ 15 →
    count.toNat ≤ 8 → segments.length = count.toNat →
    (∀ g ∈ segments, (g.tone.toNat < 32 ∨ g.tone = 0xFF) ∧ 1 ≤ g.duration.toNat ∧ g.duration.toNat ≤ 4000) →
    ((∀ l, (s.line l).refersTo record.toNat = false) →
      exec (.writeProgram record control repeats count segments) s = .next
        (({ s with
          programs := s.programs.set record.toNat
            ⟨if control.getLsbD 0 then .exclusive else .overlay, repeats.toNat, control.getLsbD 1,
              segments.map fun g : RawSegment => ⟨if g.tone.toNat < 32 then some g.tone.toNat else none, g.duration.toNat⟩⟩ }).answer
          .control .ok [])) ∧
    ((∃ l, (s.line l).refersTo record.toNat = true) →
      exec (.writeProgram record control repeats count segments) s = .next (s.refuse .control .inUse))) ∧
  ∀ (c : Instr) (s t : State) (l : Fin 4) (r : Nat), exec c s = .next t → NoReset c →
    (s.line l).refersTo r = true → t.programs.getD r ⟨.overlay, 0, false, []⟩ = s.programs.getD r ⟨.overlay, 0, false, []⟩

/-- START SIGNAL on an ENABLED line in VOICE with a program that is not empty: a background replaces the one held, with its record, and is
SUSPENDED under a foreground; a foreground is ACTIVE and suspends the background, which keeps every other field; the signalling mark is
set when a context that sets it begins or is removed, one EXCLUSIVE background replaced by another among them (R94, R113, R114, R115). STOP SIGNAL answers by what the line holds at the level: nothing, NONE; a
program, removed with SIGNAL CANCELLED cause STOP, a background resuming when the foreground goes; an off-hook CID, ended with CID ABORTED
cause STOP; an on-hook CID, BUSY (R117, R120, R141). -/
def Obligations.SignalRequestsCreateAndRemoveContexts : Prop :=
  (∀ (s : State) (l : Fin 4) (line record : Byte), s.Names .control line l → record.toNat ≤ 15 →
    (programAt s.programs record.toNat).segments ≠ [] → (s.line l).enabled = true → (s.line l).mode = .voice → s.Room 1 →
    (Answers (.startSignal line record 0) s fun t => ∃ tone,
      t.line l = { s.line l with
        background := some ⟨if (s.line l).foreground = none then .active else .suspended,
          (programAt s.programs record.toNat).output, .program record.toNat ⟨0, 0,
            if (programAt s.programs record.toNat).repeats = 0 then none else some (programAt s.programs record.toNat).repeats,
            tone⟩⟩
        mark := (t.line l).mark } ∧
      ((t.line l).mark = true ↔ (s.line l).mark = true ∨ (s.line l).Marking .background ∨ (t.line l).Marking .background) ∧
      s.LineRequest t l (if (s.line l).background = none then [] else [.signalCancelled .background .replaced])
        [0, if (s.line l).foreground = none then 1 else 2]) ∧
    ((s.line l).foreground = none → (s.line l).ring.holdsCid = false → Answers (.startSignal line record 1) s fun t => ∃ tone,
      t.line l = { s.line l with
        foreground := some ⟨.active, (programAt s.programs record.toNat).output, .program record.toNat ⟨0, 0,
          if (programAt s.programs record.toNat).repeats = 0 then none else some (programAt s.programs record.toNat).repeats, tone⟩⟩
        background := (s.line l).background.map fun c => { c with state := .suspended }
        mark := (t.line l).mark } ∧
      (s.line l).MarkRule (t.line l) ∧ s.LineRequest t l [] [0, 1]) ∧
    ((s.line l).foreground ≠ none ∨ (s.line l).ring.holdsCid = true →
      exec (.startSignal line record 1) s = .next (s.refuse .control .busy))) ∧
  ∀ (s : State) (l : Fin 4) (line : Byte), s.Names .control line l → s.Room 1 →
    ((s.line l).background = none → exec (.stopSignal line 0) s = .next (s.refuse .control .none)) ∧
    ((s.line l).foreground = none → exec (.stopSignal line 1) s = .next (s.refuse .control .none)) ∧
    (∀ st m r run, (s.line l).background = some ⟨st, m, .program r run⟩ → Answers (.stopSignal line 0) s fun t =>
      t.line l = { s.line l with background := none, mark := (t.line l).mark } ∧
      (s.line l).MarkRule (t.line l) ∧ s.LineRequest t l [.signalCancelled .background .stop] [0]) ∧
    (∀ st m r run, (s.line l).foreground = some ⟨st, m, .program r run⟩ → Answers (.stopSignal line 1) s fun t =>
      t.line l = { s.line l with
        foreground := none, background := (s.line l).background.map fun c => { c with state := .active }
        mark := (t.line l).mark } ∧
      (s.line l).MarkRule (t.line l) ∧ s.LineRequest t l [.signalCancelled .foreground .stop] [0]) ∧
    (∀ st m a, (s.line l).foreground = some ⟨st, m, .offHookCid a⟩ → Answers (.stopSignal line 1) s fun t =>
      t.line l = { s.line l with
        foreground := none, background := (s.line l).background.map fun c => { c with state := .active }
        cid := ⟨(s.line l).cid.message, false⟩, mark := (t.line l).mark } ∧
      (s.line l).MarkRule (t.line l) ∧ s.LineRequest t l [.cidAborted .stop] [0]) ∧
    ∀ st m f, (s.line l).foreground = some ⟨st, m, .onHookCid f⟩ → exec (.stopSignal line 1) s = .next (s.refuse .control .busy)

/-- The load of a line whose ACTIVE context is a program: the segment begins if no cell of it is left, copying its tone entry (R110); its 40
samples join the content that the same load would play without contexts, as saturated sums in OVERLAY and alone in EXCLUSIVE, where a MEDIA
slot counts as suppressed, and the cell takes no slip (R76, R78, R119); then the program goes on to its next cell, segment or pass (R116), or
completes: its context is removed, a background becomes ACTIVE in the same event with its other fields kept when it was the foreground, and
SIGNAL DONE is queued with the global cell of the load, by LOAD and SIGNAL DONE alike (R117). -/
def Obligations.ProgramContextsRenderAndComplete : Prop :=
  ∀ (s : State) (l : Fin 4) (v : Level) (m : OutputMode) (r left : Nat) (run : ProgramRun) (p : ProgramRecord) (g : Segment) (begun : Tone),
    s.LoadReady l → s.Room 1 → (s.line l).detector.playoutAnswer ≠ 59 →
    ((v = .foreground ∧ (s.line l).foreground = some ⟨.active, m, .program r run⟩) ∨
      (v = .background ∧ (s.line l).foreground = none ∧ (s.line l).background = some ⟨.active, m, .program r run⟩)) →
    p = s.programs.getD r ⟨.overlay, 0, false, []⟩ → g = p.segments.getD run.segment ⟨none, 0⟩ →
    left = (if run.cellsLeft = 0 then g.duration else run.cellsLeft) →
    begun = (if run.cellsLeft = 0 then (g.tone.map fun e => Tone.start (s.tones.getD e ⟨0, 0, 0⟩)).getD run.tone else run.tone) →
    ∃ t u, exec (.load l) s = .next t ∧ s.LoadFrame t l ∧
      exec (.load l) (s.setLine l { s.line l with background := none, foreground := none }) = .next u ∧
      ((t.line l).half (s.line l).playing.other).samples =
        (if m = .overlay then List.zipWith fun a b : Sample => BitVec.ofInt 16 (max (-32768) (min 32767 (a.toInt + b.toInt)))
          else fun _ rendered => rendered)
          ((u.line l).half (s.line l).playing.other).samples (if g.tone = none then List.replicate 40 0 else begun.samples 40) ∧
      ((t.line l).half (s.line l).playing.other).slip = 0 ∧
      ((s.line l).stats.suppressed ≤ 65535 → (t.line l).stats.suppressed =
        if m = .exclusive ∧ (s.loadInput l).slot.filled = true ∧ (s.loadInput l).slot.slot.kinds.media = true then
          min 65535 ((s.line l).stats.suppressed + 1) else (s.line l).stats.suppressed) ∧
      (∀ next : ProgramRun, next.tone = (if g.tone = none then begun else begun.after 40) →
        (2 ≤ left ∧ next.segment = run.segment ∧ next.cellsLeft = left - 1 ∧ next.repeats = run.repeats) ∨
        (left ≤ 1 ∧ run.segment + 1 < p.segments.length ∧ next.segment = run.segment + 1 ∧ next.cellsLeft = 0 ∧
          next.repeats = run.repeats) ∨
        (left ≤ 1 ∧ p.segments.length ≤ run.segment + 1 ∧ run.repeats = none ∧ next.segment = 0 ∧ next.cellsLeft = 0 ∧
          next.repeats = none) ∨
        (∃ n, left ≤ 1 ∧ p.segments.length ≤ run.segment + 1 ∧ run.repeats = some (n + 2) ∧ next.segment = 0 ∧ next.cellsLeft = 0 ∧
          next.repeats = some (n + 1)) →
        s.Queued t l s.g [] s.cLink.response ∧
        (v = .foreground → (t.line l).foreground = some ⟨.active, m, .program r next⟩ ∧
          (t.line l).background = (s.line l).background) ∧
        (v = .background → (t.line l).foreground = none ∧ (t.line l).background = some ⟨.active, m, .program r next⟩)) ∧
      (∀ n, left ≤ 1 → p.segments.length ≤ run.segment + 1 → run.repeats = some n → n ≤ 1 →
        s.Queued t l s.g [.signalDone v] s.cLink.response ∧ (t.line l).foreground = none ∧
        (t.line l).background = (if v = .foreground then (s.line l).background.map fun c => { c with state := .active } else none) ∧
        exec (.signalDone l) s = .next t)

/-- What is sampled. A tone begins with phases 0, increments round(f·65536/8000) and amplitude round(16384·10^(−a/40)), both stated in
integers; its n-th sample is the saturated sum of the two terms at the phases n times the increments (R110, R111). An FSK begins with phase
0 and the amplitude of its attenuation; sample n belongs to bit floor(3n/20), each sample is the term of the phase, which then advances by
9830 for mark and 18022 for space (R129, R130); its bits are the preamble and then each byte as start, eight data bits from the least
significant, and stop; after the last bit samples are 0 (R131, R132). -/
def Obligations.TonesAndFskAreSampled : Prop :=
  (∀ f, f ≤ 3999 → 8000 * (2 * (increment f).toNat) ≤ 2 * (f * 65536) + 8000 ∧
    2 * (f * 65536) + 8000 < 8000 * (2 * (increment f).toNat + 2)) ∧
  (∀ a, a ≤ 127 → 1 ≤ ampOf a ∧ (2 * ampOf a - 1) ^ 40 * 10 ^ a ≤ 32768 ^ 40 ∧ 32768 ^ 40 < (2 * ampOf a + 1) ^ 40 * 10 ^ a) ∧
  (∀ e, Tone.start e = ⟨increment e.freqA, increment e.freqB, ampOf e.attenuation, 0, 0⟩) ∧
  (∀ (t : Tone) (n k : Nat), k < n →
    (t.samples n).length = n ∧
    (t.samples n).getD k 0 = saturate (sineTerm t.amplitude (t.phaseA + BitVec.ofNat 16 k * t.incA) +
      sineTerm t.amplitude (t.phaseB + BitVec.ofNat 16 k * t.incB)) ∧
    t.after n = { t with phaseA := t.phaseA + BitVec.ofNat 16 n * t.incA, phaseB := t.phaseB + BitVec.ofNat 16 n * t.incB }) ∧
  (∀ (onHook : Bool) (m : CidMessage) (a n : Nat), 3 * n < 20 * fskBits onHook m →
    ((Fsk.start a).after onHook m n).amplitude = ampOf a ∧ ((Fsk.start a).after onHook m n).bit = 3 * n / 20 ∧
    ((Fsk.start a).after onHook m n).accumulator = 3 * n % 20 ∧ ((Fsk.start a).after onHook m 0).phase = 0 ∧
    ((Fsk.start a).after onHook m n).done onHook m = false ∧
    ((Fsk.start a).after onHook m (n + 1)).phase =
      ((Fsk.start a).after onHook m n).phase + (if fskBit onHook m (3 * n / 20) then 9830 else 18022) ∧
    ∀ k, n < k → ((Fsk.start a).samples onHook m k).length = k ∧ ((Fsk.start a).samples onHook m k).getD n 0 =
      saturate (sineTerm (ampOf a) ((Fsk.start a).after onHook m n).phase)) ∧
  (∀ (onHook : Bool) (m : CidMessage) (a n k : Nat), 20 * fskBits onHook m ≤ 3 * n → n < k →
    ((Fsk.start a).after onHook m n).done onHook m = true ∧ ((Fsk.start a).samples onHook m k).getD n 1 = 0) ∧
  ∀ m : CidMessage,
    fskBits true m = 480 + 10 * (m.payload.length + 3) ∧ fskBits false m = 80 + 10 * (m.payload.length + 3) ∧
    (∀ i, i < 300 → fskBit true m i = (i % 2 == 1)) ∧ (∀ i, 300 ≤ i → i < 480 → fskBit true m i = true) ∧
    (∀ i, i < 80 → fskBit false m i = true) ∧
    ∀ (onHook : Bool) (j : Nat) (b : Byte),
      (m.type :: BitVec.ofNat 8 m.payload.length :: (m.payload ++ [m.checksum]))[j]? = some b →
      fskBit onHook m ((if onHook then 480 else 80) + 10 * j) = false ∧
      (∀ i, i < 8 → fskBit onHook m ((if onHook then 480 else 80) + 10 * j + 1 + i) = b.getLsbD i) ∧
      fskBit onHook m ((if onHook then 480 else 80) + 10 * j + 9) = true

/-- The term of a tone or FSK sample is the amplitude times the sine of the phase, rounded: within one half and a millionth of the real number,
for every amplitude of R110 and every phase (R111, R129). That it is the rounding itself is argued in log entry 11. -/
def Obligations.SineTermsRoundTheSine : Prop :=
  ∀ (amp : Nat) (phase : Word16), amp ≤ 16384 →
    |((sineTerm amp phase : ℤ) : ℝ) - (amp : ℝ) * Real.sin (2 * Real.pi * (phase.toNat : ℝ) / 65536)| ≤ 1 / 2 + 1 / 1000000

/-! ### Caller identification and ringing -/

/-- LOAD CID on an ENABLED line whose buffer is FREE: the message is held with a checksum that makes the sum of all its bytes a multiple of
256, and the checksum is answered; a buffer IN USE refuses it (R127). CID ALERT with every check passed: the buffer is IN USE and an
OFF-HOOK CID context stands in the foreground, ACTIVE and EXCLUSIVE, in ALERT with 0 cells rendered, the background SUSPENDED; an
on-hook line is refused ON-HOOK, a line in FAX FAX MODE, an empty buffer STATE (R137). -/
def Obligations.CallerIdRequestsLoadAndAlert : Prop :=
  (∀ (s : State) (l : Fin 4) (line type length : Byte) (payload : List Byte), s.Names .control line l → length.toNat ≤ 60 →
    payload.length = length.toNat → (s.line l).enabled = true →
    ((s.line l).cid.inUse = true → exec (.loadCid line type length payload) s = .next (s.refuse .control .inUse)) ∧
    ((s.line l).cid.inUse = false → ∃ sum : Byte,
      (type.toNat + length.toNat + (payload.map BitVec.toNat).sum + sum.toNat) % 256 = 0 ∧
      exec (.loadCid line type length payload) s = .next
        ((s.setLine l { s.line l with cid := ⟨some ⟨type, payload, sum⟩, false⟩ }).answer .control .ok [sum]))) ∧
  ∀ (s : State) (l : Fin 4) (line entry : Byte), s.Names .control line l → entry.toNat ≤ 31 → (s.line l).enabled = true →
    ((s.line l).offHook = false → exec (.cidAlert line entry) s = .next (s.refuse .control .onHook)) ∧
    ((s.line l).offHook = true → (s.line l).mode = .fax → exec (.cidAlert line entry) s = .next (s.refuse .control .faxMode)) ∧
    ((s.line l).offHook = true → (s.line l).mode = .voice → (s.line l).cid.message = none →
      exec (.cidAlert line entry) s = .next (s.refuse .control .state)) ∧
    ((s.line l).offHook = true → (s.line l).mode = .voice → (s.line l).cid.message ≠ none → (s.line l).foreground = none →
      Answers (.cidAlert line entry) s fun t =>
        t.line l = { s.line l with
          cid := ⟨(s.line l).cid.message, true⟩
          foreground := some ⟨.active, .exclusive, .offHookCid ⟨entry.toNat, .alert, 0, none, none⟩⟩
          background := (s.line l).background.map fun c => { c with state := .suspended }
          mark := (t.line l).mark } ∧
        (s.line l).MarkRule (t.line l) ∧ s.LineRequest t l [] [0])

/-- The phases of an off-hook CID: ALERT END after the 16th ALERT cell, SETTLE END after the 10th SETTLE cell, CID NO-ACK at the 32nd AWAIT-ACK
cell, and CID SENT at the cell that ends the FSK; the last two remove the context and free the buffer. CID SENT of an on-hook CID, which the
Ring Controller then follows with OFF, or with IDLE and RING DONE when the burst count is 1. The cells of a CID, which is EXCLUSIVE and takes
no slip: the alert tone in ALERT, from its entry as it stands at the first cell; silence in AWAIT-ACK and SETTLE; in SEND and on hook the FSK
of the message, begun with the attenuation held at its first cell (R76, R78, R129, R132, R134, R135, R138, R139, R140). -/
def Obligations.CallerIdGoesThroughItsPhases : Prop :=
  ∀ (s : State) (l : Fin 4) (m : OutputMode) (e : Nat) (tone : Option Tone) (fsk : Option Fsk), s.LoadReady l → s.Room 2 →
    (s.line l).detector.playoutAnswer ≠ 59 →
    ((s.line l).foreground = some ⟨.active, m, .offHookCid ⟨e, .alert, 15, tone, fsk⟩⟩ → Answers (.alertEnd l) s fun t =>
      (∃ tone', (t.line l).foreground = some ⟨.active, m, .offHookCid ⟨e, .awaitAck, 0, tone', fsk⟩⟩) ∧
      s.Queued t l s.g [] s.cLink.response ∧ s.LoadFrame t l) ∧
    ((s.line l).foreground = some ⟨.active, m, .offHookCid ⟨e, .settle, 9, tone, fsk⟩⟩ → Answers (.settleEnd l) s fun t =>
      (t.line l).foreground = some ⟨.active, m, .offHookCid ⟨e, .send, 0, tone, fsk⟩⟩ ∧
      s.Queued t l s.g [] s.cLink.response ∧ s.LoadFrame t l) ∧
    ((s.line l).foreground = some ⟨.active, m, .offHookCid ⟨e, .awaitAck, 31, tone, fsk⟩⟩ → Answers (.cidNoAck l) s fun t =>
      (t.line l).foreground = none ∧ (t.line l).cid = ⟨(s.line l).cid.message, false⟩ ∧
      (t.line l).background = (s.line l).background.map (fun c => { c with state := .active }) ∧
      s.Queued t l s.g [.cidNoAck] s.cLink.response ∧ s.LoadFrame t l) ∧
    (∀ f k msg, (s.line l).foreground = some ⟨.active, m, .offHookCid ⟨e, .send, k, tone, some f⟩⟩ → f.accumulator < 20 →
      (s.line l).cid.message = some msg → 80 + 10 * (msg.payload.length + 3) ≤ f.bit + 6 → Answers (.cidSent l) s fun t =>
        (t.line l).foreground = none ∧ (t.line l).cid = ⟨some msg, false⟩ ∧
        (t.line l).background = (s.line l).background.map (fun c => { c with state := .active }) ∧
        s.Queued t l s.g [.cidSent] s.cLink.response ∧ s.LoadFrame t l) ∧
    (∀ f msg begun remaining, (s.line l).foreground = some ⟨.active, m, .onHookCid (some f)⟩ → f.accumulator < 20 →
      (s.line l).ring.state = .cidSend begun remaining →
      (s.line l).cid.message = some msg → 480 + 10 * (msg.payload.length + 3) ≤ f.bit + 6 → Answers (.cidSent l) s fun t =>
        (t.line l).foreground = none ∧ (t.line l).cid = ⟨some msg, false⟩ ∧
        (t.line l).background = (s.line l).background.map (fun c => { c with state := .active }) ∧
        ((s.line l).ring.bursts ≠ 1 → (t.line l).ring = { (s.line l).ring with state := .off begun remaining, cid := none } ∧
          s.Queued t l s.g [.cidSent] s.cLink.response) ∧
        ((s.line l).ring.bursts = 1 → (t.line l).ring = { (s.line l).ring with state := .idle, cid := none } ∧
          s.Queued t l s.g [.cidSent, .ringDone .count] s.cLink.response) ∧
        s.LoadFrame t l) ∧
    (∀ (phase : AlertPhase) (k : Nat) (begun : Tone) (f : Fsk) (msg : CidMessage),
      (s.line l).foreground = some ⟨.active, .exclusive, .offHookCid ⟨e, phase, k, tone, fsk⟩⟩ → (s.line l).cid.message = some msg →
      begun = tone.getD (Tone.start (s.tones.getD e ⟨0, 0, 0⟩)) → f = fsk.getD (Fsk.start (s.line l).cidAttenuation) →
      Answers (.load l) s fun t =>
        s.LoadFrame t l ∧ ((t.line l).half (s.line l).playing.other).slip = 0 ∧
        ((t.line l).half (s.line l).playing.other).samples =
          (match phase with
            | .alert => begun.samples 40
            | .awaitAck => List.replicate 40 0
            | .settle => List.replicate 40 0
            | .send => f.samples false msg 40) ∧
        (phase = .alert → k < 15 → s.Queued t l s.g [] s.cLink.response ∧
          (t.line l).foreground = some ⟨.active, .exclusive, .offHookCid ⟨e, .alert, k + 1, some (begun.after 40), fsk⟩⟩) ∧
        ((phase = .awaitAck ∧ k < 31) ∨ (phase = .settle ∧ k < 9) → s.Queued t l s.g [] s.cLink.response ∧
          (t.line l).foreground = some ⟨.active, .exclusive, .offHookCid ⟨e, phase, k + 1, tone, fsk⟩⟩) ∧
        (phase = .send → (f.after false msg 40).done false msg = false → s.Queued t l s.g [] s.cLink.response ∧
          (t.line l).foreground =
            some ⟨.active, .exclusive, .offHookCid ⟨e, .send, k + 1, tone, some (f.after false msg 40)⟩⟩)) ∧
    ∀ (f : Fsk) (msg : CidMessage), (s.line l).foreground = some ⟨.active, .exclusive, .onHookCid fsk⟩ →
      (s.line l).cid.message = some msg → f = fsk.getD (Fsk.start (s.line l).cidAttenuation) → Answers (.load l) s fun t =>
        s.LoadFrame t l ∧ ((t.line l).half (s.line l).playing.other).slip = 0 ∧
        ((t.line l).half (s.line l).playing.other).samples = f.samples true msg 40 ∧
        ((f.after true msg 40).done true msg = false → s.Queued t l s.g [] s.cLink.response ∧
          (t.line l).foreground = some ⟨.active, .exclusive, .onHookCid (some (f.after true msg 40))⟩)

/-- RING START with every check passed begins the first burst with RINGEN high, and schedules an attached CID with its buffer IN USE; an OFF-HOOK
line is refused OFF-HOOK, and one that rings BUSY. RING STOP ends a ringing with RING DONE cause STOP and RINGEN low; with an on-hook CID
scheduled, in ON or in CID-DELAY, or sending, CID ABORTED cause STOP comes before it, the buffer is FREE, and a sending context is removed,
a SUSPENDED background resuming; on an IDLE line it answers NONE (R133, R136, R152, R156). -/
def Obligations.RingStartAndStop : Prop :=
  ∀ (s : State) (l : Fin 4) (line : Byte), s.Names .control line l →
    (∀ (on off : Word16) (bursts : Byte) (delay : Word16), 20 ≤ on.toNat → on.toNat ≤ 4000 → 20 ≤ off.toNat → off.toNat ≤ 8000 →
      (s.line l).enabled = true →
      ((s.line l).offHook = true → exec (.ringStart line on off bursts 0 delay) s = .next (s.refuse .control .offHook)) ∧
      ((s.line l).offHook = false → (s.line l).ring.state ≠ .idle →
        exec (.ringStart line on off bursts 0 delay) s = .next (s.refuse .control .busy)) ∧
      ((s.line l).offHook = false → (s.line l).ring.state = .idle →
        (Answers (.ringStart line on off bursts 0 delay) s fun t =>
          t.line l = { s.line l with ring := ⟨.on 1 on.toNat, on.toNat, off.toNat, bursts.toNat, none⟩ } ∧
          (t.line l).ringen = true ∧ s.LineRequest t l [] [0]) ∧
        (20 ≤ delay.toNat → delay.toNat ≤ 400 → (s.line l).cid.message ≠ none → (s.line l).cid.inUse = false →
          (s.line l).mode = .voice → (s.line l).foreground = none → Answers (.ringStart line on off bursts 1 delay) s fun t =>
            t.line l = { s.line l with
              ring := ⟨.on 1 on.toNat, on.toNat, off.toNat, bursts.toNat, some delay.toNat⟩
              cid := ⟨(s.line l).cid.message, true⟩ } ∧
            (t.line l).ringen = true ∧ s.LineRequest t l [] [0]))) ∧
    ((s.line l).ring.state = .idle → exec (.ringStop line) s = .next (s.refuse .control .none)) ∧
    ((s.line l).ring.state ≠ .idle → (s.line l).ring.holdsCid = false → s.Room 1 → Answers (.ringStop line) s fun t =>
      t.line l = { s.line l with
        ring := { (s.line l).ring with state := .idle, cid := none }, due := { (s.line l).due with ring := false } } ∧
      (t.line l).ringen = false ∧ s.LineRequest t l [.ringDone .stop] [0]) ∧
    (((∃ remaining, (s.line l).ring.state = .on 1 remaining) ∧ (s.line l).ring.cid ≠ none) ∨
        (∃ begun remaining delay, (s.line l).ring.state = .cidDelay begun remaining delay) →
      (s.line l).foreground = none → s.Room 2 → Answers (.ringStop line) s fun t =>
        t.line l = { s.line l with
          ring := { (s.line l).ring with state := .idle, cid := none }, cid := ⟨(s.line l).cid.message, false⟩
          due := { (s.line l).due with ring := false } } ∧
        (t.line l).ringen = false ∧ s.LineRequest t l [.cidAborted .stop, .ringDone .stop] [0]) ∧
    ∀ begun remaining m f, (s.line l).ring.state = .cidSend begun remaining →
      (s.line l).foreground = some ⟨.active, m, .onHookCid f⟩ → s.Room 2 → Answers (.ringStop line) s fun t =>
        t.line l = { s.line l with
          ring := { (s.line l).ring with state := .idle, cid := none }, cid := ⟨(s.line l).cid.message, false⟩
          foreground := none, background := (s.line l).background.map fun c => { c with state := .active }
          mark := (t.line l).mark, due := { (s.line l).due with ring := false } } ∧
        (s.line l).MarkRule (t.line l) ∧
        (t.line l).ringen = false ∧ s.LineRequest t l [.cidAborted .stop, .ringDone .stop] [0]

/-- BURST END, BURST BEGIN and CID SEND at the boundary where the period, or the CID delay, has run out (R134, R153, R154): the states that
follow, RING DONE cause COUNT stamped with the global cell just ended, and the ON-HOOK CID context.
That the step sets no signalling mark is, in a case of log entry 16, the model's choice. -/
def Obligations.RingCadenceTurns : Prop :=
  ∀ (s : State) (l : Fin 4), s.resetLow = false → (s.line l).enabled = true → (s.line l).started = true →
    (s.line l).due.ring = true → s.Room 1 →
    (∀ begun, (s.line l).ring.state = .on begun 1 → (s.line l).ring.cid = none →
      (s.line l).ring.bursts = 0 ∨ begun < (s.line l).ring.bursts → Answers (.burstEnd l) s fun t =>
        t.line l = { s.line l with
          ring := { (s.line l).ring with state := .off begun (s.line l).ring.offPeriod }
          due := { (s.line l).due with ring := false } } ∧
        (t.line l).ringen = false ∧ s.OwnEvent t l (s.g - 1) []) ∧
    (∀ begun, (s.line l).ring.state = .on begun 1 → (s.line l).ring.cid = none → (s.line l).ring.bursts = begun → begun ≠ 0 →
      Answers (.burstEnd l) s fun t =>
        t.line l = { s.line l with
          ring := { (s.line l).ring with state := .idle, cid := none }, due := { (s.line l).due with ring := false } } ∧
        (t.line l).ringen = false ∧ s.OwnEvent t l (s.g - 1) [.ringDone .count]) ∧
    (∀ delay, (s.line l).ring.state = .on 1 1 → (s.line l).ring.cid = some delay → Answers (.burstEnd l) s fun t =>
      t.line l = { s.line l with
        ring := { (s.line l).ring with state := .cidDelay 1 (s.line l).ring.offPeriod delay }
        due := { (s.line l).due with ring := false } } ∧
      (t.line l).ringen = false ∧ s.OwnEvent t l (s.g - 1) []) ∧
    (∀ begun remaining, (s.line l).ring.state = .off begun remaining → remaining ≤ 1 → Answers (.burstBegin l) s fun t =>
      t.line l = { s.line l with
        ring := { (s.line l).ring with state := .on (if begun < 255 then begun + 1 else 255) (s.line l).ring.onPeriod }
        due := { (s.line l).due with ring := false } } ∧
      (t.line l).ringen = true ∧ s.OwnEvent t l (s.g - 1) []) ∧
    ∀ begun remaining delay, (s.line l).ring.state = .cidDelay begun remaining delay → delay ≤ 1 →
      Answers (.cidSend l) s fun t =>
        t.line l = { s.line l with
          ring := { (s.line l).ring with state := .cidSend begun (remaining - 1) }
          foreground := some ⟨.active, .exclusive, .onHookCid none⟩
          background := (s.line l).background.map fun c => { c with state := .suspended }
          due := { (s.line l).due with ring := false } } ∧
        (t.line l).ringen = false ∧ s.OwnEvent t l (s.g - 1) []

/-! ### Deposits and fills -/

/-- OPEN DEPOSIT with a mask of 1..15 and a source of 0..3 binds the new record with no samples held; an open deposit is replaced, which sets
SEQUENCE; out of range it is refused RANGE and the buffer is as it was (R48, R49). DEPOSIT DATA with a count of 1..320: samples that fit an
unbroken deposit are appended in order; an overflow fills the buffer to 40·n, breaks the deposit, answers SEQUENCE and sets the flag; any
other count is refused RANGE (R50, R51). Where there is no deposit, or a broken or short one, DEPOSIT DATA and COMMIT DEPOSIT answer SEQUENCE
and set the flag, a commit of too few samples answers SHORT and does not; a refused commit closes the deposit, reaches no line and queues
nothing (R50, R53, R57). That bits 7..4 of the gain byte are ignored is the model's choice (log entry 29). -/
def Obligations.DepositRequestsFillTheBuffer : Prop :=
  ∀ s : State, s.Hears .media →
    (∀ (mask source : Byte) (time : Word32) (control gain : Byte),
      (∀ m : Fin 4, source.toNat = m.val → 1 ≤ mask.toNat → mask.toNat ≤ 15 →
        exec (.openDeposit mask source time control gain) s = .next { s with
          deposit := some
            { mask := ⟨mask.getLsbD 0, mask.getLsbD 1, mask.getLsbD 2, mask.getLsbD 3⟩, source := m, time := time
              cells := control.toNat / 32 + 1, mix := if control.getLsbD 4 then .add else .replace
              invert := control.getLsbD 3
              gain := if gain.toNat % 16 < 8 then min (gain.toNat % 16 : Int) 3 else (gain.toNat % 16 : Int) - 16
              mark := control.getLsbD 2, samples := [], broken := false }
          sequence := s.sequence || s.deposit.isSome
          mLink := { s.mLink with response := [0, if s.deposit.isSome then 1 else 0] } }) ∧
      (4 ≤ source.toNat ∨ mask.toNat = 0 ∨ 15 < mask.toNat →
        exec (.openDeposit mask source time control gain) s = .next (s.refuse .media .range))) ∧
    (∀ (count : Word16) (samples : List Sample),
      (count.toNat = 0 ∨ 320 < count.toNat → exec (.depositData count samples) s = .next (s.refuse .media .range)) ∧
      (1 ≤ count.toNat → count.toNat ≤ 320 → samples.length = count.toNat →
        (∀ d, s.deposit = some d → d.broken = false → d.samples.length ≤ 40 * d.cells →
          (d.samples.length + samples.length ≤ 40 * d.cells → exec (.depositData count samples) s = .next
            ((s.setDeposit (some { d with samples := d.samples ++ samples })).answer .media .ok
              (nat2 (d.samples.length + samples.length)))) ∧
          (40 * d.cells < d.samples.length + samples.length → exec (.depositData count samples) s = .next
            (((s.setDeposit (some { d with
                samples := d.samples ++ samples.take (40 * d.cells - d.samples.length), broken := true })).setSequence).answer
              .media .sequence (nat2 (40 * d.cells))))) ∧
        (s.deposit = none → exec (.depositData count samples) s = .next (s.setSequence.answer .media .sequence [0, 0])) ∧
        ∀ d, s.deposit = some d → d.broken = true →
          exec (.depositData count samples) s = .next (s.setSequence.answer .media .sequence (nat2 d.samples.length)))) ∧
    ∀ n : Nat,
      (s.deposit = none → exec (.commitDeposit n) s = .next (s.setSequence.answer .media .sequence [])) ∧
      (∀ d, s.deposit = some d → d.broken = true →
        exec (.commitDeposit n) s = .next (((s.setDeposit none).setSequence).answer .media .sequence [])) ∧
      ∀ d, s.deposit = some d → d.broken = false → d.samples.length < 40 * d.cells →
        exec (.commitDeposit n) s = .next ((s.setDeposit none).answer .media .short [])

/-- ABANDON DEPOSIT (R55): with a deposit open, broken or not, it closes it with OK; with none it answers NONE; nothing else changes, the
SEQUENCE flag included. -/
def Obligations.AbandonDepositCloses : Prop :=
  ∀ s : State, s.Hears .media →
    (∀ d, s.deposit = some d → exec .abandonDeposit s = .next ((s.setDeposit none).answer .media .ok [])) ∧
    (s.deposit = none → exec .abandonDeposit s = .next (s.answer .media .none []))

/-- A complete deposit committed to one IDLE line anchors its source at depth A beyond the horizon, takes the line to RUNNING with run 0, and
writes its cells, inverted and scaled, to the slots A, A + 1, … ahead of hs, each FILLED with the source alone and kind MEDIA; the response is
ACCEPTED with the margin 40·A, every other store cell is as before, and nothing else of the part but the line's statistics and window may
change (R30 to R34, R38, R40, R42, R44, R54, R60). -/
def Obligations.CommitAnchorsIdleLine : Prop :=
  ∀ (s : State) (l : Fin 4) (d : Deposit) (p : RingEntry) (n : Nat), s.Hears .media → s.StoreLaw → s.deposit = some d →
    d.mask = (Four.all false).set l true → d.broken = false → d.samples.length = 40 * d.cells → 1 ≤ d.cells → d.cells ≤ 8 →
    (s.line l).enabled = true → (s.line l).playout = .idle → (s.line l).anchors.get d.source = .unanchored →
    (s.line l).HasRing p → p.len ≤ 256 → (s.line l).hs < p.len → (∀ i, i < p.len → s.store.read (p.base + i) = StoreCell.reset) →
    1 ≤ (s.line l).depth → (s.line l).depth + d.cells ≤ p.len →
    Answers (.commitDeposit (n + 1)) s fun t =>
      t.line l = { s.line l with
        anchors := (s.line l).anchors.set d.source
          (.anchored ((s.line l).horizon + BitVec.ofNat 32 (40 * (s.line l).depth) - d.time))
        playout := .running, run := 0, stats := (t.line l).stats, window := (t.line l).window } ∧
      ((s.line l).stats.InRange → (t.line l).stats = (s.line l).stats) ∧
      (d.source ≠ (s.line l).config.lead → (t.line l).window = (s.line l).window) ∧
      (∀ i, i < d.cells → t.store.read (p.base + ((s.line l).hs + (s.line l).depth + i) % p.len) =
        ⟨transform d.invert d.gain ((d.samples.drop (40 * i)).take 40),
          .slot ⟨.filled, (Four.all false).set d.source true, ⟨true, false⟩⟩⟩) ∧
      (∀ a, (∀ i, i < d.cells → a ≠ p.base + ((s.line l).hs + (s.line l).depth + i) % p.len) → t.store.read a = s.store.read a) ∧
      t = { s with
        lines := t.lines, store := t.store, deposit := none
        mLink := { s.mLink with response := [0, 0, 0, 0, 0] ++ int2 (40 * (s.line l).depth) } } ∧
      s.OtherLinesKept t l

/-- FILL CELLS of one cell with ADD on one line whose source is ANCHORED, at an aligned distance in the ring: an EMPTY slot takes the pattern
through the gain step with kind FILL and is WRITTEN; a slot that holds the source already is a duplicate and is unchanged (R38, R40, R62, R66,
R67). That bits 7..4 of the gain byte are ignored is the model's choice (log entry 29). -/
def Obligations.FillWritesOrFindsDuplicate : Prop :=
  ∀ (s : State) (l m : Fin 4) (mask source gain : Byte) (time offset : Word32) (p : RingEntry) (j n : Nat), s.Hears .media →
    s.StoreLaw → mask.toNat = 2 ^ l.val → source.toNat = m.val → (s.line l).enabled = true → (s.line l).stats.InRange →
    (s.line l).anchors.get m = .anchored offset → (s.line l).HasRing p → p.len ≤ 256 → j < p.len →
    (time + offset - (s.line l).horizon).toInt = 40 * j →
    ((s.store.read (p.base + ((s.line l).hs + j) % p.len)).filled = false →
      Answers (.fillCells mask source time 0x11 gain (n + 1)) s fun t =>
        t.store.read (p.base + ((s.line l).hs + j) % p.len) =
          ⟨s.fillPattern.map (gainStep (gainOf gain)), .slot ⟨.filled, (Four.all false).set m true, ⟨false, true⟩⟩⟩ ∧
        (∀ a, a ≠ p.base + ((s.line l).hs + j) % p.len → t.store.read a = s.store.read a) ∧
        s.Answered t .media [0, 0, 1, 0, 0, 0] ∧ t.line l = s.line l ∧ s.OtherLinesKept t l ∧ s.PartKept t ∧
        t.events = s.events) ∧
    ((s.store.read (p.base + ((s.line l).hs + j) % p.len)).filled = true →
      (s.store.read (p.base + ((s.line l).hs + j) % p.len)).slot.sources.get m = true →
      Answers (.fillCells mask source time 0x11 gain (n + 1)) s fun t =>
        s.StoreKept t ∧ s.Answered t .media [0, 0, 0, 0, 0, 1] ∧
        t.line l = { s.line l with stats := { (s.line l).stats with
          duplicate := if (s.line l).stats.duplicate < 65535 then (s.line l).stats.duplicate + 1 else 65535 } } ∧
        s.OtherLinesKept t l ∧ s.PartKept t ∧ t.events = s.events)

/-- What a commit or a fill does at one line. A DISABLED line is OFF and nothing changes. On an ENABLED one the write anchors its source when the
source is not ANCHORED or MARK is set: offset (H + 40·A − T) mod 2^32, an IDLE line in RUNNING with run 0, the source cleared from every slot
(R31 to R34). The distance of cell i is (T + offset − H) read signed, plus 40·i; a distance that is no multiple of 40 is MISALIGNED and
nothing is written (R38, R39). A cell behind the horizon is late, one beyond the ring early; the others meet their slots by the table of
R21: written over an EMPTY slot, under REPLACE, or as saturated sums under ADD, and a duplicate under ADD where the source is held already
(R40, R60, R62, R63). Late, early and duplicate cells are counted; the lead source's deposits lower the window minimum to their margin (R43,
R44, R83). The response is the outcome with its counts and margin of a commit, or the status with the counts of a fill (R42, R54, R67). That
bits 7..4 of a fill's gain byte are ignored is the model's choice (log entry 29). -/
def Obligations.WriteSortsAndMixesCells : Prop :=
  ∀ (s : State) (c : Instr) (l : Fin 4) (w : Write), s.Hears .media → s.StoreLaw → s.Sends c l w →
    ((s.line l).enabled = false → exec c s = .next { s with
      deposit := if w.kind = .media then none else s.deposit
      mLink := { s.mLink with response := if w.kind = .media then [0, 6, 0, 0, 0, 0, 0] else [0, 6, 0, 0, 0, 0] } }) ∧
    ∀ (p : RingEntry) (o : Word32) (d0 margin : Int), (s.line l).enabled = true → (s.line l).HasRing p → 8 ≤ p.len → p.len ≤ 256 →
      (s.line l).hs < p.len →
      ((s.line l).MustAnchor w ∧ o = (s.line l).horizon + BitVec.ofNat 32 (40 * (s.line l).depth) - w.time ∨
        ¬(s.line l).MustAnchor w ∧ (s.line l).anchors.get w.source = .anchored o) →
      d0 = (w.time + o - (s.line l).horizon).toInt → margin = max (-32768) (min 32767 d0) →
      ((s.line l).MustAnchor w → (s.line l).depth ≤ 255 → d0 = 40 * (s.line l).depth) ∧
      (¬(s.line l).MustAnchor w → d0 % 40 ≠ 0 → exec c s = .next { s with
        deposit := if w.kind = .media then none else s.deposit
        mLink := { s.mLink with
          response := if w.kind = .media then [0, 5, 0, 0, 0] ++ int2 margin else [0, 5, 0, 0, 0, 0] } }) ∧
      ∀ (before : Nat → StoreCell) (inRing : Nat → Bool) (late early duplicate : Nat), d0 % 40 = 0 →
        ((s.line l).MustAnchor w → ∀ k, before k = slotWithout w.source (s.store.read (p.base + ((s.line l).hs + k) % p.len))) →
        (¬(s.line l).MustAnchor w → ∀ k, before k = s.store.read (p.base + ((s.line l).hs + k) % p.len)) →
        (∀ i, inRing i = decide (0 ≤ d0 + 40 * i ∧ d0 + 40 * i < 40 * p.len)) →
        late = (w.cells.filter fun x => decide (d0 + 40 * x.1 < 0)).length →
        early = (w.cells.filter fun x => decide (40 * (p.len : Int) ≤ d0 + 40 * x.1)).length →
        duplicate = (w.cells.filter fun x => inRing x.1 && isDuplicate w (before (d0 / 40 + x.1).toNat)).length →
        Answers c s fun t =>
          (∀ x ∈ w.cells, inRing x.1 = true →
            t.store.read (p.base + ((s.line l).hs + (d0 / 40 + x.1).toNat) % p.len) =
              slotAfter w x.2 (before (d0 / 40 + x.1).toNat)) ∧
          (∀ k, k < p.len → (∀ x ∈ w.cells, d0 / 40 + x.1 ≠ k) →
            t.store.read (p.base + ((s.line l).hs + k) % p.len) = before k) ∧
          (∀ a, a < p.base ∨ p.base + p.len ≤ a → t.store.read a = s.store.read a) ∧
          ((s.line l).MustAnchor w → t.line l = { s.line l with
            anchors := (s.line l).anchors.set w.source (.anchored o)
            playout := if (s.line l).playout = .idle then .running else (s.line l).playout
            run := if (s.line l).playout = .idle then 0 else (s.line l).run
            stats := (t.line l).stats, window := (t.line l).window }) ∧
          (¬(s.line l).MustAnchor w → t.line l = { s.line l with stats := (t.line l).stats, window := (t.line l).window }) ∧
          (t.line l).stats = { (s.line l).stats with
            late := min 65535 ((s.line l).stats.late + late), early := min 65535 ((s.line l).stats.early + early)
            duplicate := min 65535 ((s.line l).stats.duplicate + duplicate) } ∧
          (w.kind = .fill ∨ w.source ≠ (s.line l).config.lead → (t.line l).window = (s.line l).window) ∧
          (w.kind = .media → w.source = (s.line l).config.lead → (t.line l).window = { (s.line l).window with
            minimum := some (((s.line l).window.minimum.map fun x => min x margin).getD margin) }) ∧
          t = { s with
            lines := t.lines, store := t.store, deposit := if w.kind = .media then none else s.deposit
            mLink := { s.mLink with
              response :=
                if w.kind = .media then
                  [0, outcomeByte w.cells.length late early, BitVec.ofNat 8 late, BitVec.ofNat 8 early, BitVec.ofNat 8 duplicate] ++
                    int2 margin
                else [0, 0, BitVec.ofNat 8 (w.cells.length - late - early - duplicate), BitVec.ofNat 8 late, BitVec.ofNat 8 early,
                  BitVec.ofNat 8 duplicate] } } ∧
          s.OtherLinesKept t l

/-- Several lines of a mask (R26, R45, R54, R67). A commit or a fill taken for `n` lines writes the first `n` of its mask in ascending order; the rest
is written by what goes on with it, and dividing the lines among commands makes no difference when nothing comes between. Each line is
written as a request for that line alone would write it on the state as it stands by then, and is reported in its place; with the last one a
commit closes its deposit and the response is complete. Any other frame of the Media Link finds all lines written. That loads, boundaries and
C-link requests may come between is R26; the operand is the model's way to say it (log entry 18), and that bits 7..4 of a gain byte are
ignored is its choice (log entry 29). -/
def Obligations.LinesOfAMaskAreWrittenOneByOne : Prop :=
  (∀ (s : State) (d : Deposit), s.Hears .media → s.deposit = some d → d.Complete → (∃ l, d.mask.get l = true) →
    exec (.commitDeposit 0) s = .next { s with
      job := some ⟨⟨.media, d.source, d.time, d.mix, d.mark,
        (List.range d.cells).map fun i => (i, transform d.invert d.gain ((d.samples.drop (40 * i)).take 40))⟩,
        four.filter fun l => d.mask.get l, []⟩ }) ∧
  (∀ (s : State) (mask source control gain : Byte) (time : Word32) (m : Fin 4), s.Hears .media → 1 ≤ mask.toNat → mask.toNat ≤ 15 →
    source.toNat = m.val → control.toNat % 16 ≠ 0 → exec (.fillCells mask source time control gain 0) s = .next { s with
      job := some ⟨⟨.fill, m, time, if control.getLsbD 4 then .add else .replace, control.getLsbD 5,
        ((List.range 4).filter fun i => control.getLsbD i).map fun i => (i, s.fillPattern.map (gainStep (gainOf gain)))⟩,
        four.filter fun l => mask.getLsbD l.val, []⟩ }) ∧
  (∀ (s t : State) (a b : Nat), s.Hears .media →
    (exec (.commitDeposit a) s = .next t → t.job ≠ none → exec (.commitDeposit b) t = exec (.commitDeposit (a + b)) s) ∧
    ∀ mask source time control gain, exec (.fillCells mask source time control gain a) s = .next t → t.job ≠ none →
      exec (.fillCells mask source time control gain b) t = exec (.fillCells mask source time control gain (a + b)) s) ∧
  (∀ (s : State) (one more : Instr) (l : Fin 4) (rest : List (Fin 4)) (w : Write) (report : List Byte) (deposit : Option Deposit),
    s.resetLow = false → s.mLink.ignoring = false → s.job = some ⟨w, l :: rest, report⟩ →
    (w.kind = .media ∧ more = .commitDeposit 1) ∨
      (w.kind = .fill ∧ ∃ mask source time control gain, more = .fillCells mask source time control gain 1) →
    ({ s with job := none, deposit := deposit } : State).Sends one l w →
    ∃ u bytes, exec one { s with job := none, deposit := deposit } = .next u ∧ u.mLink.response = 0 :: bytes ∧
      (rest ≠ [] → exec more s = .next { s with
        lines := u.lines, store := u.store, job := some ⟨w, rest, report ++ bytes⟩ }) ∧
      (rest = [] → exec more s = .next { s with
        lines := u.lines, store := u.store, job := none, deposit := if w.kind = .media then none else s.deposit
        mLink := { s.mLink with response := 0 :: (report ++ bytes) } })) ∧
  ∀ (s : State) (j : WriteJob) (c more : Instr) (bytes : List Byte), s.resetLow = false → s.mLink.ignoring = false → s.job = some j →
    (j.write.kind = .media ∧ more = .commitDeposit j.left.length ∧ ∀ n, c ≠ .commitDeposit n) ∨
      (j.write.kind = .fill ∧ (∃ mask source time control gain, more = .fillCells mask source time control gain j.left.length) ∧
        ∀ mask source time control gain n, c ≠ .fillCells mask source time control gain n) →
    frameOf c = some (.media, bytes) → WellFormed c = true →
    ∃ u, exec more s = .next u ∧ u.job = none ∧ exec c s = exec c u

/-- The fill pattern (R69): 40 samples of 0 after a device reset; LOAD FILL PATTERN of 40 samples replaces it; any other count is refused RANGE,
and a request cut short is discarded, the pattern as it was; no other command but a device reset changes it. -/
def Obligations.FillPatternChangesOnlyByItsLoad : Prop :=
  (∀ low cFrame mFrame s, Answers (.deviceReset low cFrame mFrame) s fun t => t.fillPattern = List.replicate 40 0) ∧
  (∀ (s : State) (count : Word16) (samples : List Sample), s.Hears .media →
    (count.toNat = 40 → samples.length = 40 →
      exec (.loadFillPattern count samples) s = .next (({ s with fillPattern := samples }).answer .media .ok [])) ∧
    (count.toNat ≠ 40 → exec (.loadFillPattern count samples) s = .next (s.refuse .media .range))) ∧
  (∀ s : State, s.Hears .media → exec (.truncatedFrame .media 0x45) s =
    .next { s with mLink := { s.mLink with frame := true, response := [] } }) ∧
  ∀ (c : Instr) (s t : State), exec c s = .next t → NoReset c →
    (∀ count samples, c ≠ .loadFillPattern count samples) → t.fillPattern = s.fillPattern

/-- The gain step (R59): 0 passes a sample unchanged; a negative step divides by 2^|g| with the last bit shifted out added, which is rounding
half toward positive infinity, within −16384..16384 for −1 and so never saturated; a positive step multiplies by 2^g and saturates. -/
def Obligations.GainStepRoundsHalfUp : Prop :=
  ∀ x : Sample, gainStep 0 x = x ∧
    (∀ k : Nat, 1 ≤ k → k ≤ 8 →
      (gainStep (-(k : Int)) x).toInt = x.toInt / 2 ^ k + (if x.getLsbD (k - 1) then 1 else 0) ∧
      (gainStep (-(k : Int)) x).toInt = (x.toInt + 2 ^ (k - 1)) / 2 ^ k) ∧
    (-16384 ≤ (gainStep (-1) x).toInt ∧ (gainStep (-1) x).toInt ≤ 16384) ∧
    ∀ k : Nat, 1 ≤ k → k ≤ 3 → (gainStep k x).toInt = max (-32768) (min 32767 (x.toInt * 2 ^ k))

/-! ### The playout load -/

/-- SET PLAYOUT takes every value in any line state, each clamped to its range, the depths and the threshold to the line's present rings (or
255 and 64 with none), the high water mark to the stored low one, and answers the stored values (R19, R85). That bits 7..4 of the fill gain are
ignored (log entry 29), and that they and the unnamed bits of the control byte are answered 0 (log entry 22), is the model's choice. -/
def Obligations.SetPlayoutClampsValues : Prop :=
  ∀ (s : State) (l : Fin 4) (line : Byte) (v : RawPlayout), s.Names .media line l → (∀ e, (s.line l).playRing = some e → 2 ≤ e.len) →
    (∀ e, (s.line l).capRing = some e → 1 ≤ e.len) → Answers (.setPlayout line v) s fun t =>
      (t.line l).config.voiceDepth =
        max 1 (min (((s.line l).playRing.map fun e => e.len - 1).getD 255) v.voiceDepth.toNat) ∧
      (t.line l).config.faxDepth = max 1 (min (((s.line l).playRing.map fun e => e.len - 1).getD 255) v.faxDepth.toNat) ∧
      (t.line l).config.starve = max 2 v.starve.toNat ∧ (t.line l).config.patience = v.patience.toNat ∧
      (t.line l).config.lowWater = min 10200 v.lowWater.toNat ∧
      (t.line l).config.highWater = max (min 10200 v.lowWater.toNat) (min 10200 v.highWater.toNat) ∧
      (t.line l).config.window = max 10 (min 2000 v.window.toNat) ∧ (t.line l).config.quiet = min 32767 v.quiet.toNat ∧
      (t.line l).config.fillGain = gainOf v.fillGain ∧ (t.line l).config.autoSlip = v.control.getLsbD 0 ∧
      (t.line l).config.lead.val = min 3 v.lead.toNat ∧
      (t.line l).capThreshold = max 1 (min (((s.line l).capRing.map RingEntry.len).getD 64) v.capture.toNat) ∧
      t.line l = { s.line l with config := (t.line l).config, capThreshold := (t.line l).capThreshold } ∧
      s.Answered t .media (0 :: (t.line l).playoutBytes) ∧ s.OtherLinesKept t l ∧ s.PartKept t ∧ t.store = s.store ∧
      t.events = s.events

/-- REALIGN of an ENABLED line adds the slip request, clamped, to the pending slip, clamped, and answers it; with CLEAR it also empties the ring,
unanchors every source, invalidates the repeat buffer and puts the line in IDLE with run 0; a DISABLED line is refused STATE (R87, R88).
READ AND CLEAR STATISTICS answers the eight counters as they stand and zeroes them in the same event, in any line state (R89, R90). -/
def Obligations.RealignAndStatisticsRequests : Prop :=
  (∀ (s : State) (l : Fin 4) (line slip control : Byte), s.Names .media line l →
    ((s.line l).enabled = false → exec (.realign line slip control) s = .next (s.refuse .media .state) ∧
      exec (.realignWithClear line slip control) s = .next (s.refuse .media .state)) ∧
    (control.getLsbD 0 = true → exec (.realign line slip control) s = exec (.realignWithClear line slip control) s) ∧
    ((s.line l).enabled = true → control.getLsbD 0 = false → Answers (.realign line slip control) s fun t =>
      (t.line l).pendingSlip = max (-40) (min 40 ((s.line l).pendingSlip + max (-40) (min 40 slip.toInt))) ∧
      t.line l = { s.line l with pendingSlip := (t.line l).pendingSlip } ∧ t.store = s.store ∧
      s.Answered t .media [0, BitVec.ofInt 8 (t.line l).pendingSlip] ∧ s.OtherLinesKept t l ∧ s.PartKept t ∧ t.events = s.events) ∧
    ∀ p, (s.line l).enabled = true → (s.line l).HasRing p → s.StoreLaw → Answers (.realignWithClear line slip control) s fun t =>
      (t.line l).pendingSlip = max (-40) (min 40 ((s.line l).pendingSlip + max (-40) (min 40 slip.toInt))) ∧
      t.line l = { s.line l with
        pendingSlip := (t.line l).pendingSlip, run := 0, repeatBuffer := none, playout := .idle
        anchors := ⟨.unanchored, .unanchored, .unanchored, .unanchored⟩ } ∧
      (∀ a, t.store.read a = if p.base ≤ a ∧ a < p.base + p.len then StoreCell.reset else s.store.read a) ∧
      s.Answered t .media [0, BitVec.ofInt 8 (t.line l).pendingSlip] ∧ s.OtherLinesKept t l ∧ s.PartKept t ∧ t.events = s.events) ∧
  ∀ (s : State) (l : Fin 4) (line : Byte), s.Names .media line l → exec (.readAndClearStatistics line) s = .next
    ((s.setLine l { s.line l with stats := ⟨0, 0, 0, 0, 0, 0, 0, 0⟩ }).answer .media .ok
      (nat2 (s.line l).stats.late ++ nat2 (s.line l).stats.early ++ nat2 (s.line l).stats.duplicate ++
        nat2 (s.line l).stats.concealed ++ nat2 (s.line l).stats.suppressed ++ nat2 (s.line l).stats.slipsPlus ++
        nat2 (s.line l).stats.slipsMinus ++ nat2 (s.line l).stats.overruns))

/-- A due LOAD puts a cell with base H and slip −1, 0 or +1 into the half that is not playing, empties the slot at hs and no other, and
advances H by 40 and hs by 1 modulo Lp; the playing half, the configuration, the capture side, the hook side, the other lines and the rest of
the part are as before; the signalling mark is set when a context that sets it begins to or ceases to at the load (R10, R22, R24, R81,
R94). -/
def Obligations.LoadAdvancesHorizon : Prop :=
  ∀ (s : State) (l : Fin 4), s.resetLow = false → (s.line l).loadDue = true → Answers (.load l) s fun t =>
    s.LoadFrame t l ∧
    ((t.line l).half (s.line l).playing.other).base = (s.line l).horizon ∧
    (((t.line l).half (s.line l).playing.other).slip = -1 ∨ ((t.line l).half (s.line l).playing.other).slip = 0 ∨
      ((t.line l).half (s.line l).playing.other).slip = 1) ∧
    (s.StoreLaw → t.store.read ((s.line l).playBase + (s.line l).hs) = StoreCell.reset)

/-- The load that applies a pending mode (stage 1 of R74): the mode is the pending one and none is pending; every context is removed, so that the
load renders nothing and goes on as the load of the line so changed; the detector machines are as after a reset (R123, R163). It queues the
record of what the foreground was, SIGNAL CANCELLED cause FAX for a program and CID ABORTED cause FAX for a CID, whose buffer is FREE; then
that of the background, DIGIT END for a digit held and not taken, and MODE CHANGED with its cause last. A ringing with a CID scheduled or
sending goes on without it: in ON as it was, in CID-DELAY and CID-SEND in OFF with the period it held, or, with a burst count of 1, in IDLE
with RING DONE cause COUNT after the CID ABORTED; a ringing without CID is not reached (R136, R157). Where those rules leave the place of
RING DONE among the records open, it follows the CID ABORTED at once, which is the model's choice (log entry 12). -/
def Obligations.LoadAppliesPendingMode : Prop :=
  ∀ (s : State) (l : Fin 4) (p : PendingMode), s.resetLow = false → (s.line l).loadDue = true → (s.line l).pendingMode = some p →
    (s.line l).CidLaw → s.Room 5 → ∃ t u,
      exec (.load l) s = .next t ∧ s.LoadFrame t l ∧
      exec (.load l) (s.setLine l { s.line l with
        mode := p.mode, pendingMode := none, background := none, foreground := none
        detector := ⟨⟨.seeking, none, 0⟩, 0, 0, 0⟩ }) = .next u ∧
      t.line l = { u.line l with
        cid := (t.line l).cid, ring := (t.line l).ring, mark := (s.line l).mark || (s.line l).signalling
        due := { (u.line l).due with ring := (t.line l).due.ring } } ∧
      t.store = u.store ∧ (t.line l).mode = p.mode ∧ (t.line l).pendingMode = none ∧ (t.line l).NoContexts ∧
      (t.line l).detector = ⟨⟨.seeking, none, 0⟩, 0, 0, (t.line l).detector.playoutAnswer⟩ ∧
      (t.line l).detector.playoutAnswer ≤ (if p.mode = .voice then 1 else 0) ∧
      ∀ after : List Event,
        after = (if (s.line l).background = none then [] else [.signalCancelled .background .fax]) ++
          (match (s.line l).detector.digits.phase with
            | .held d n _ false => [.digitEnd d n]
            | _ => []) ++ [.modeChanged p.mode p.cause] →
        ((s.line l).ring.holdsCid = false →
          (t.line l).ring = (s.line l).ring ∧ (t.line l).due.ring = (s.line l).due.ring ∧
          ((s.line l).foreground = none → (t.line l).cid = (s.line l).cid ∧ s.Queued t l s.g after s.cLink.response) ∧
          (∀ st m r run, (s.line l).foreground = some ⟨st, m, .program r run⟩ →
            (t.line l).cid = (s.line l).cid ∧ s.Queued t l s.g (.signalCancelled .foreground .fax :: after) s.cLink.response) ∧
          (∀ st m a, (s.line l).foreground = some ⟨st, m, .offHookCid a⟩ →
            (t.line l).cid = ⟨(s.line l).cid.message, false⟩ ∧
            s.Queued t l s.g (.cidAborted .fax :: after) s.cLink.response)) ∧
        (∀ remaining, (s.line l).ring.state = .on 1 remaining → (s.line l).ring.cid ≠ none →
          (t.line l).ring = { (s.line l).ring with cid := none } ∧ (t.line l).due.ring = (s.line l).due.ring ∧
          (t.line l).cid = ⟨(s.line l).cid.message, false⟩ ∧ s.Queued t l s.g (.cidAborted .fax :: after) s.cLink.response) ∧
        ∀ begun remaining, ((s.line l).ring.state = .cidSend begun remaining ∨
            ∃ delay, (s.line l).ring.state = .cidDelay begun remaining delay) →
          (t.line l).cid = ⟨(s.line l).cid.message, false⟩ ∧
          ((s.line l).ring.bursts ≠ 1 → (t.line l).ring = { (s.line l).ring with state := .off begun remaining, cid := none } ∧
            (t.line l).due.ring = (s.line l).due.ring ∧ s.Queued t l s.g (.cidAborted .fax :: after) s.cLink.response) ∧
          ((s.line l).ring.bursts = 1 → (t.line l).ring = { (s.line l).ring with state := .idle, cid := none } ∧
            (t.line l).due.ring = false ∧
            s.Queued t l s.g (.cidAborted .fax :: .ringDone .count :: after) s.cLink.response)

/-- What a load of an EMPTY slot plays on a line with no context: zeros in IDLE and in FAX, the repeat buffer attenuated by the run in RUNNING
VOICE for a run of 1..4, the fill pattern through the fill gain otherwise; the run rises, and the load counts as concealed unless the line is
IDLE; the cell takes one sample of a pending slip as any cell does (R73, R74, R77, R78, R79, R82). -/
def Obligations.EmptySlotConceals : Prop :=
  ∀ (s : State) (l : Fin 4), s.LoadReady l → (s.line l).NoContexts → (s.loadInput l).slot.filled = false →
    (s.line l).run ≤ 65535 → Answers (.load l) s fun t =>
      (t.line l).run = min 65535 ((s.line l).run + 1) ∧
      ((s.line l).playout = .idle →
        ((t.line l).half (s.line l).playing.other).samples = List.replicate 40 0 ∧
        (t.line l).stats.concealed = (s.line l).stats.concealed ∧ (t.line l).playout = .idle) ∧
      ((s.line l).playout ≠ .idle → (s.line l).stats.concealed ≤ 65535 →
        (t.line l).stats.concealed = min 65535 ((s.line l).stats.concealed + 1)) ∧
      ((s.line l).playout ≠ .idle → (s.line l).mode = .fax →
        ((t.line l).half (s.line l).playing.other).samples = List.replicate 40 0) ∧
      (∀ b, (s.line l).playout = .running → (s.line l).mode = .voice → (s.line l).repeatBuffer = some b → (s.line l).run < 4 →
        ((t.line l).half (s.line l).playing.other).samples =
          b.map fun x => BitVec.ofInt 16 ((x.toInt + 2 ^ (s.line l).run) / 2 ^ ((s.line l).run + 1))) ∧
      ((s.line l).playout = .running → (s.line l).mode = .voice → (s.line l).repeatBuffer = none ∨ 4 ≤ (s.line l).run →
        ((t.line l).half (s.line l).playing.other).samples = s.fillPattern.map (gainStep (s.line l).config.fillGain)) ∧
      ((s.line l).playout = .starved → (s.line l).mode = .voice →
        ((t.line l).half (s.line l).playing.other).samples = s.fillPattern.map (gainStep (s.line l).config.fillGain)) ∧
      (t.line l).repeatBuffer = (s.line l).repeatBuffer ∧ (s.line l).SlipRule (t.line l)

/-- A load of a FILLED slot on a line with no context plays the slot's samples, sets the run to 0, takes a STARVED line to RUNNING, keeps a MEDIA
cell for concealment, and takes one sample of a pending slip in a quiet cell, or in VOICE once the patience has run out, whether or not the
same load closes the window (R71, R72, R74, R77 to R79, R82). -/
def Obligations.FilledSlotPlaysAndSlips : Prop :=
  ∀ (s : State) (l : Fin 4), s.LoadReady l → (s.line l).NoContexts → (s.loadInput l).slot.filled = true →
    Answers (.load l) s fun t =>
      ((t.line l).half (s.line l).playing.other).samples = (s.loadInput l).slot.samples ∧ (t.line l).run = 0 ∧
      ((s.line l).playout ≠ .idle → (t.line l).playout = .running) ∧
      ((s.loadInput l).slot.slot.kinds.media = true → (t.line l).repeatBuffer = some (s.loadInput l).slot.samples) ∧
      ((s.loadInput l).slot.slot.kinds.media = false → (t.line l).repeatBuffer = (s.line l).repeatBuffer) ∧
      (t.line l).stats.concealed = (s.line l).stats.concealed ∧
      (s.line l).SlipRule (t.line l)

/-- STARVE and WINDOW CLOSE: a RUNNING line whose run reaches K at the load of an EMPTY slot becomes STARVED, and in VOICE alone its ANCHORED
sources become STALE (R35, R75); a load that reaches W moves the window minimum to the last window minimum and, with auto-slip on, adds to
what the cell's own slip has left of the pending slip what the water marks ask for, the sum clamped to −40..+40 (R82). -/
def Obligations.LoadStarvesAndClosesWindow : Prop :=
  ∀ (s : State) (l : Fin 4), s.LoadReady l →
    ((s.loadInput l).slot.filled = false → (s.line l).playout = .running → (s.line l).run ≤ 65535 →
      (s.line l).config.starve ≤ min 65535 ((s.line l).run + 1) → Answers (.starve l) s fun t =>
        (t.line l).playout = .starved ∧ s.LoadFrame t l ∧
        ((s.line l).mode = .fax → (t.line l).anchors = (s.line l).anchors) ∧
        ((s.line l).mode = .voice → ∀ m,
          (∀ o, (s.line l).anchors.get m = .anchored o → (t.line l).anchors.get m = .stale) ∧
          ((s.line l).anchors.get m = .unanchored → (t.line l).anchors.get m = .unanchored) ∧
          ((s.line l).anchors.get m = .stale → (t.line l).anchors.get m = .stale))) ∧
    ((s.line l).config.window ≤ (s.line l).window.counter + 1 → Answers (.windowClose l) s fun t =>
      (t.line l).window = ⟨0, none, (s.line l).window.minimum⟩ ∧ s.LoadFrame t l ∧
      ∀ left ask : Int, left = (s.line l).pendingSlip - ((t.line l).half (s.line l).playing.other).slip →
        ((s.line l).config.autoSlip = false ∨ (s.line l).window.minimum = none → (t.line l).pendingSlip = max (-40) (min 40 left)) ∧
        ∀ m, (s.line l).config.autoSlip = true → (s.line l).window.minimum = some m →
          (m < (s.line l).config.lowWater ∧ ask = 1) ∨
            (((s.line l).config.lowWater : Int) ≤ m ∧ m ≤ (s.line l).config.highWater ∧ ask = 0) ∨
            (((s.line l).config.lowWater : Int) ≤ m ∧ ((s.line l).config.highWater : Int) < m ∧ ask = -1) →
          (t.line l).pendingSlip = max (-40) (min 40 (left + ask)))

/-! ### Capture -/

/-- A due CAPTURE STORE writes one record, stamped with the global cell just ended, at the write index: into a ring with room u rises by 1; into a
full one the oldest unread record is given up and overruns rises; a rise to the threshold owes a pulse, at most four, in PULSE mode (R92 to
R96, R103). -/
def Obligations.CaptureStoreWritesRecord : Prop :=
  ∀ (s : State) (l : Fin 4) (c : RingEntry), s.resetLow = false → (s.line l).captureDue = true → s.StoreLaw →
    (s.line l).capRing = some c → c.base + c.len ≤ 1024 → (s.line l).capWrite < c.len →
    Answers (.captureStore l) s fun t =>
      (∃ off, t.store.read (c.base + (s.line l).capWrite) =
        ⟨(s.line l).closedHalf.samples, .capture
          { stamp := s.g - 1, reference := (s.line l).closedHalf.reference, cls := (s.line l).closedHalf.cls
            offhook := off, signalling := (s.line l).closedMark, fax := (s.line l).mode == .fax }⟩ ∧
        ((s.line l).due.hook = false → off = (s.line l).offHook) ∧
        ((s.line l).due.hook = true → off = ((s.line l).stepHook s.programs (s.line l).hookPin).1.offHook)) ∧
      (∀ a, a ≠ c.base + (s.line l).capWrite → t.store.read a = s.store.read a) ∧
      ((s.line l).unread < c.len → t.line l = { s.line l with
        capWrite := ((s.line l).capWrite + 1) % c.len, unread := (s.line l).unread + 1
        due := { (s.line l).due with capture := false } }) ∧
      (c.len ≤ (s.line l).unread → t.line l = { s.line l with
        capWrite := ((s.line l).capWrite + 1) % c.len, capRead := ((s.line l).capRead + 1) % c.len
        stats := { (s.line l).stats with
          overruns := if (s.line l).stats.overruns < 65535 then (s.line l).stats.overruns + 1 else 65535 }
        due := { (s.line l).due with capture := false } }) ∧
      ((s.line l).unread < c.len → (s.line l).unread + 1 = (s.line l).capThreshold → s.mLink.irq.mode = .pulse →
        t.mLink = { s.mLink with irq := { s.mLink.irq with owed := if s.mLink.irq.owed < 4 then s.mLink.irq.owed + 1 else 4 } }) ∧
      ((s.line l).unread + 1 ≠ (s.line l).capThreshold ∨ c.len ≤ (s.line l).unread ∨ s.mLink.irq.mode = .level →
        t.mLink = s.mLink) ∧
      s.OtherLinesKept t l ∧ s.PartKept t ∧ t.events = s.events ∧ t.cLink = s.cLink

/-- CAPTURE READ with a maximum of 1..8 removes the r = min(maximum, u) oldest unread records and answers r and the records of 90 bytes each, oldest
first: stamp, reference, class byte, flags byte and the samples, each field big-endian; a maximum out of range is refused RANGE, a DISABLED
line STATE (R98, R99, R176). -/
def Obligations.CaptureReadReturnsOldest : Prop :=
  ∀ (s : State) (l : Fin 4) (line maximum : Byte) (c : RingEntry), s.Names .media line l → (s.line l).capRing = some c →
    (maximum.toNat = 0 ∨ 8 < maximum.toNat → exec (.captureRead line maximum) s = .next (s.refuse .media .range)) ∧
    (1 ≤ maximum.toNat → maximum.toNat ≤ 8 → (s.line l).enabled = false →
      exec (.captureRead line maximum) s = .next (s.refuse .media .state)) ∧
    (1 ≤ maximum.toNat → maximum.toNat ≤ 8 → (s.line l).enabled = true → Answers (.captureRead line maximum) s fun t =>
      t.line l = { s.line l with
        capRead := ((s.line l).capRead + min maximum.toNat (s.line l).unread) % c.len
        unread := (s.line l).unread - min maximum.toNat (s.line l).unread } ∧
      s.Answered t .media (0 :: BitVec.ofNat 8 (min maximum.toNat (s.line l).unread) ::
        (List.range (min maximum.toNat (s.line l).unread)).flatMap fun k =>
          recordBytes (s.store.read (c.base + ((s.line l).capRead + k) % c.len))) ∧
      (∀ info : Nat → CaptureInfo,
        (∀ k, k < (s.line l).unread →
          (s.store.read ((s.line l).capBase + ((s.line l).capRead + k) % (s.line l).lc)).info = .capture (info k)) →
        t.mLink.response = 0 :: BitVec.ofNat 8 (min maximum.toNat (s.line l).unread) ::
          (List.range (min maximum.toNat (s.line l).unread)).flatMap fun k =>
            bytes4 (info k).stamp ++ bytes4 (info k).reference ++
              [classByte (info k).cls,
                (if (info k).offhook then 1 else 0) + (if (info k).signalling then 2 else 0) + (if (info k).fax then 4 else 0)] ++
              (s.store.read (c.base + ((s.line l).capRead + k) % c.len)).samples.flatMap fun x =>
                [x.extractLsb' 8 8, x.extractLsb' 0 8]) ∧
      ((∀ a, (s.store.read a).samples.length = 40) →
        t.mLink.response.length = 2 + 90 * min maximum.toNat (s.line l).unread) ∧
      s.OtherLinesKept t l ∧ s.PartKept t ∧ t.store = s.store ∧ t.events = s.events)

/-! ### Hook and tones -/

/-- The hook classifier, sample by sample. ONHOOK counts raw off-hook samples, an on-hook one sets the count to 0, and the fourth qualifies
OFF-HOOK (R144), which ends a ringing as ring trip with the flag set during a burst, and an on-hook CID scheduled or sending with CID ABORTED
cause OFF-HOOK after the record (R136, R155). An on-hook sample begins or lengthens a break (R145, R147), and the 181st qualifies ON-HOOK,
which ends an off-hook CID and the program contexts, foreground before background, and leaves an on-hook CID (R122, R141, R147). DIALING
counts make samples, and the 60th completes the dialled digit (R146). An off-hook sample ends a break: of 1..3 cells as a glitch, in the
state it broke; of 4..20 as a dial pulse, the first of a digit cutting a background with cut-on-digit (R121); of 21..180 as a flash, after
the record of a digit dialled before it (R148).
That the step sets no signalling mark is, in the cases of log entry 16, the model's choice. -/
def Obligations.HookClassifierQualifies : Prop :=
  ∀ (s : State) (l : Fin 4) (d : Due) (n : Nat), s.resetLow = false → (s.line l).hookDue = true → s.Room 3 →
    d = { (s.line l).due with hook := false } → (s.line l).hook.pulses = n →
    (∀ off, (s.line l).hook.state = .onhook off →
      ((s.line l).hookPin = false → s.Turns (.hookSample l) l { s.line l with hook := ⟨.onhook 0, n⟩, due := d } []) ∧
      ((s.line l).hookPin = true → off < 3 →
        s.Turns (.hookSample l) l { s.line l with hook := ⟨.onhook (off + 1), n⟩, due := d } [])) ∧
    ((s.line l).hook.state = .onhook 3 → (s.line l).hookPin = true →
      ((s.line l).ring.holdsCid = false → s.Turns (.offHook l) l { s.line l with
          hook := ⟨.offhook, 0⟩, ring := { (s.line l).ring with state := .idle, cid := none }, due := { d with ring := false } }
        [.offHook (s.line l).ringen]) ∧
      ((s.line l).ring.holdsCid = true → (s.line l).foreground = none → s.Turns (.offHook l) l { s.line l with
          hook := ⟨.offhook, 0⟩, ring := { (s.line l).ring with state := .idle, cid := none }, due := { d with ring := false }
          cid := ⟨(s.line l).cid.message, false⟩ }
        [.offHook (s.line l).ringen, .cidAborted .offHook]) ∧
      (∀ st m f, (s.line l).ring.holdsCid = true → (s.line l).foreground = some ⟨st, m, .onHookCid f⟩ →
        s.Turns (.offHook l) l { s.line l with
            hook := ⟨.offhook, 0⟩, ring := { (s.line l).ring with state := .idle, cid := none }, due := { d with ring := false }
            cid := ⟨(s.line l).cid.message, false⟩, foreground := none
            background := (s.line l).background.map fun c => { c with state := .active } }
          [.offHook (s.line l).ringen, .cidAborted .offHook])) ∧
    ((s.line l).hook.state = .offhook →
      ((s.line l).hookPin = true → s.Turns (.hookSample l) l { s.line l with due := d } []) ∧
      ((s.line l).hookPin = false → s.Turns (.hookSample l) l { s.line l with hook := ⟨.brk 1 .offhook, n⟩, due := d } [])) ∧
    (∀ make, (s.line l).hook.state = .dialing make →
      ((s.line l).hookPin = false → s.Turns (.hookSample l) l { s.line l with hook := ⟨.brk 1 (.dialing make), n⟩, due := d } []) ∧
      ((s.line l).hookPin = true → make < 59 →
        s.Turns (.hookSample l) l { s.line l with hook := ⟨.dialing (make + 1), n⟩, due := d } []) ∧
      ((s.line l).hookPin = true → make = 59 → 1 ≤ n → s.Turns (.pulseDigit l) l { s.line l with hook := ⟨.offhook, 0⟩, due := d }
        [if n ≤ 10 then .pulseDigit (n % 10) else .dialError n])) ∧
    ∀ b ret, (s.line l).hook.state = .brk b ret →
      ((s.line l).hookPin = false → b < 180 →
        s.Turns (.hookSample l) l { s.line l with hook := ⟨.brk (b + 1) ret, n⟩, due := d } []) ∧
      (∀ after : List Event, (s.line l).hookPin = false → b = 180 →
        after = (if (s.line l).background = none then [] else [.signalCancelled .background .onHook]) →
        ((s.line l).foreground = none → s.Turns (.onHook l) l
          { s.line l with hook := ⟨.onhook 0, 0⟩, background := none, due := d } (.onHook :: after)) ∧
        (∀ st m r run, (s.line l).foreground = some ⟨st, m, .program r run⟩ → s.Turns (.onHook l) l
          { s.line l with hook := ⟨.onhook 0, 0⟩, foreground := none, background := none, due := d }
          (.onHook :: .signalCancelled .foreground .onHook :: after)) ∧
        (∀ st m a, (s.line l).foreground = some ⟨st, m, .offHookCid a⟩ → s.Turns (.onHook l) l
          { s.line l with
            hook := ⟨.onhook 0, 0⟩, foreground := none, background := none, cid := ⟨(s.line l).cid.message, false⟩, due := d }
          (.onHook :: .cidAborted .onHook :: after)) ∧
        ∀ st m f, (s.line l).foreground = some ⟨st, m, .onHookCid f⟩ → s.Turns (.onHook l) l
          { s.line l with hook := ⟨.onhook 0, 0⟩, background := none, due := d } (.onHook :: after)) ∧
      ((s.line l).hookPin = true → b ≤ 3 →
        (ret = .offhook → s.Turns (.hookSample l) l { s.line l with hook := ⟨.offhook, n⟩, due := d } []) ∧
        ∀ make, ret = .dialing make → s.Turns (.hookSample l) l { s.line l with hook := ⟨.dialing make, n⟩, due := d } []) ∧
      ((s.line l).hookPin = true → 4 ≤ b → b ≤ 20 →
        (1 ≤ n → s.Turns (.hookSample l) l { s.line l with hook := ⟨.dialing 0, min 255 (n + 1)⟩, due := d } []) ∧
        (n = 0 → ((s.line l).background = none ∨ ∃ st m r run, (s.line l).background = some ⟨st, m, .program r run⟩ ∧
            (s.programs.getD r ⟨.overlay, 0, false, []⟩).cutOnDigit = false) →
          s.Turns (.hookSample l) l { s.line l with hook := ⟨.dialing 0, 1⟩, due := d } []) ∧
        ∀ st m r run, n = 0 → (s.line l).background = some ⟨st, m, .program r run⟩ →
          (s.programs.getD r ⟨.overlay, 0, false, []⟩).cutOnDigit = true →
          s.Turns (.hookSample l) l { s.line l with hook := ⟨.dialing 0, 1⟩, background := none, due := d }
            [.signalCancelled .background .digit]) ∧
      ((s.line l).hookPin = true → 21 ≤ b → s.Turns (.hookSample l) l { s.line l with hook := ⟨.offhook, 0⟩, due := d }
        ((if n = 0 then [] else [if n ≤ 10 then .pulseDigit (n % 10) else .dialError n]) ++ [.flash]))

/-- The digit machine in VOICE. SEEKING: a cell of the run digit lengthens the run, one of another digit begins a run of its own, any other
class ends it (R160); the eighth consecutive cell qualifies the digit with a DIGIT record, which cuts a background with cut-on-digit, its
record following; only A or D in AWAIT-ACK of an off-hook CID is taken as its acknowledgement instead (R121, R139, R160, R162). HELD:
a cell of the held digit joins the duration with the release cells before it; any other cell is a release cell, one of another digit being
counted in a run of its own; the third in a row releases the digit with DIGIT END unless it was taken, and the machine seeks on with that run
(R161), the third cell counted in it too, which is the model's reading (log entry 15). The fax counters take the same cell (R164, R165).
In FAX the machines do not step (R159).
That the step sets no signalling mark is, in the cases of log entry 16, the model's choice. -/
def Obligations.DigitMachineQualifiesAndReleases : Prop :=
  ∀ (s : State) (l : Fin 4) (d : Digit) (c : CellClass) (due : Due), s.resetLow = false → (s.line l).detectorDue = true → s.Room 2 →
    due = { (s.line l).due with detector := false } → c = (s.line l).closedHalf.cls →
    ((s.line l).mode = .fax → s.Turns (.toneDetectorStep l) l { s.line l with due := due } []) ∧
    ((s.line l).mode = .voice → (s.line l).detector.digits = ⟨.seeking, some d, 7⟩ → c = .dtmf d →
      ((∀ m e k tone fsk, d = 12 ∨ d = 15 →
          (s.line l).foreground ≠ some ⟨.active, m, .offHookCid ⟨e, .awaitAck, k, tone, fsk⟩⟩) →
        (∀ x, (s.line l).foreground = some x → x.state = .active) →
        ((s.line l).background = none ∨ (∃ st m r run, (s.line l).background = some ⟨st, m, .program r run⟩ ∧
            (s.programs.getD r ⟨.overlay, 0, false, []⟩).cutOnDigit = false) →
          s.Turns (.digit l) l { s.line l with
            detector := (s.line l).detector.after c ⟨.held d 8 0 false, none, 0⟩, due := due } [.digit d]) ∧
        ∀ st m r run, (s.line l).background = some ⟨st, m, .program r run⟩ →
          (s.programs.getD r ⟨.overlay, 0, false, []⟩).cutOnDigit = true → s.Turns (.digit l) l { s.line l with
            detector := (s.line l).detector.after c ⟨.held d 8 0 false, none, 0⟩, background := none, due := due }
            [.digit d, .signalCancelled .background .digit]) ∧
      ∀ m e k tone fsk, (s.line l).foreground = some ⟨.active, m, .offHookCid ⟨e, .awaitAck, k, tone, fsk⟩⟩ → d = 12 ∨ d = 15 →
        s.Turns (.digit l) l { s.line l with
          detector := (s.line l).detector.after c ⟨.held d 8 0 true, none, 0⟩
          foreground := some ⟨.active, m, .offHookCid ⟨e, .settle, 0, tone, fsk⟩⟩, due := due } []) ∧
    ((s.line l).mode = .voice → (c = .faxCalling → (s.line l).detector.faxCalling ≠ 99) →
      (c = .faxAnswer → (s.line l).detector.captureAnswer ≠ 59) → ∀ (run : Option Digit) (n : Nat),
      ((s.line l).detector.digits = ⟨.seeking, run, n⟩ → (∀ e, c = .dtmf e → run = some e → n ≠ 7) →
        s.Turns (.toneDetectorStep l) l { s.line l with
          detector := (s.line l).detector.after c (runAfter .seeking run n c), due := due } []) ∧
      ∀ duration release taken, (s.line l).detector.digits = ⟨.held d duration release taken, run, n⟩ →
        (c = .dtmf d → s.Turns (.toneDetectorStep l) l { s.line l with
          detector := (s.line l).detector.after c ⟨.held d (min 65535 (duration + 1 + release)) 0 taken, none, 0⟩, due := due } []) ∧
        (c ≠ .dtmf d → release < 2 → s.Turns (.toneDetectorStep l) l { s.line l with
          detector := (s.line l).detector.after c (runAfter (.held d duration (release + 1) taken) run n c), due := due } []) ∧
        (c ≠ .dtmf d → release = 2 → s.Turns (.digitEnd l) l { s.line l with
          detector := (s.line l).detector.after c (runAfter .seeking run n c), due := due }
          (if taken then [] else [.digitEnd d duration])))

/-- The fax-tone machines in VOICE: the 100th FAX-CALLING cell queues FAX CALLING, the 60th captured FAX-ANSWER cell FAX ANSWER with direction
LOCAL, the 60th played one, by the class of the samples that the load puts into its half, direction REMOTE; with auto-fax on and no pending
mode the pending mode becomes FAX with cause AUTO, and a pending mode already there is kept (R164 to R166). A cell of zeros is NONE, and
one whose power over its 40 samples stands at −45 dBm0 or above, a sine of peak 32767 standing at +3 dBm0, is not (R158). That the bound is
exact, where R158 lets a cell near it have either class, is the model's choice, and what else is measured of a cell is not fixed (log
entry 10). -/
def Obligations.FaxTonesQualify : Prop :=
  (∀ (s : State) (l : Fin 4), s.resetLow = false → (s.line l).detectorDue = true → s.Room 1 → (s.line l).mode = .voice →
    (s.line l).detector.digits.phase = .seeking →
    ((s.line l).closedHalf.cls = .faxCalling → (s.line l).detector.faxCalling = 99 → s.Turns (.faxCalling l) l { s.line l with
        detector := ⟨⟨.seeking, none, 0⟩, 100, 0, (s.line l).detector.playoutAnswer⟩
        pendingMode := if (s.line l).autoFax = true ∧ (s.line l).pendingMode = none then some ⟨.fax, .auto⟩ else (s.line l).pendingMode
        due := { (s.line l).due with detector := false } } [.faxCalling]) ∧
    ((s.line l).closedHalf.cls = .faxAnswer → (s.line l).detector.captureAnswer = 59 →
      s.Turns (.faxAnswer l .localEnd) l { s.line l with
        detector := ⟨⟨.seeking, none, 0⟩, 0, 60, (s.line l).detector.playoutAnswer⟩
        pendingMode := if (s.line l).autoFax = true ∧ (s.line l).pendingMode = none then some ⟨.fax, .auto⟩ else (s.line l).pendingMode
        due := { (s.line l).due with detector := false } } [.faxAnswer .localEnd])) ∧
  (∀ (s : State) (l : Fin 4), s.LoadReady l → (s.line l).NoContexts → s.Room 1 → (s.line l).mode = .voice →
    (s.line l).detector.playoutAnswer = 59 → Answers (.load l) s fun t =>
      s.LoadFrame t l ∧
      (classify ((t.line l).half (s.line l).playing.other).samples = .faxAnswer →
        exec (.faxAnswer l .remoteEnd) s = .next t ∧ (t.line l).detector.playoutAnswer = 60 ∧
        (t.line l).pendingMode = (if (s.line l).autoFax = true then some ⟨.fax, .auto⟩ else none) ∧
        s.Queued t l s.g [.faxAnswer .remoteEnd] s.cLink.response) ∧
      (classify ((t.line l).half (s.line l).playing.other).samples ≠ .faxAnswer →
        exec (.faxAnswer l .remoteEnd) s = .next s ∧ (t.line l).detector.playoutAnswer = 0 ∧ (t.line l).pendingMode = none ∧
        s.Queued t l s.g [] s.cLink.response)) ∧
  classify (List.replicate 40 0) = .none ∧
  ∀ cell : List Sample,
    (20 * 32767 ^ 2) ^ 5 ≤ ((cell.map fun x => x.toInt.natAbs ^ 2).sum) ^ 5 * 10 ^ 24 → classify cell ≠ .none

/-! ### Links and events -/

/-- LINE STATUS and READ LINK STATUS change nothing but the response. LINE STATUS answers 35 bytes, the same on either link: ENABLED, mode and
pending mode; the playout state and the horizon, which before the start boundary read as IDLE and 0; the playing half; the pending slip; the
last window minimum; the number of FILLED slots; the unread count; hook and ring states; the contexts; the statistics (R22, R91, R177). A
DISABLED line answers 0xFF for the playout state, absent contexts, and 0 for all else (R177). READ LINK STATUS answers 8 bytes on the C-link
and 7 on the M-link, laid out as R174 gives. That the bits no table names are 0 is the model's reading (log entry 22). -/
def Obligations.StatusRequestsChangeNothing : Prop :=
  (∀ (s : State) (l : Fin 4) (line : Byte) (k : Link), s.Names k line l →
    ((s.line l).enabled = false → (s.line l).DisabledLaw → exec (.lineStatus k line) s = .next (s.answer k .ok
      [0, 0xFF, 0, 0, 0, 0, 0, 0, 0, 0, 0, 0, 0, 0, 0, 0, 0xFF, 0, 0xFF, 0, 0, 0, 0, 0, 0, 0, 0, 0, 0, 0, 0, 0, 0, 0, 0])) ∧
    ∀ (p : RingEntry) (bytes : List Byte), (s.line l).enabled = true → (s.line l).HasRing p →
      bytes =
        ([1 + (if (s.line l).mode = .fax then 2 else 0) +
            (match (s.line l).pendingMode with
              | none => 0
              | some ⟨.voice, _⟩ => 4
              | some ⟨.fax, _⟩ => 8),
          if (s.line l).started = false then 0 else
            match (s.line l).playout with
            | .idle => 0
            | .running => 1
            | .starved => 2] : List Byte) ++
          bytes4 (if (s.line l).started = false then 0 else (s.line l).horizon) ++
          [if (s.line l).started = false then 0 else if (s.line l).playing = .first then 1 else 2,
            BitVec.ofInt 8 (s.line l).pendingSlip] ++
          (match (s.line l).window.lastMinimum with
            | none => [0, 0, 0]
            | some m => 1 :: int2 m) ++
          nat2 ((List.range p.len).filter fun i => (s.store.read (p.base + i)).filled).length ++
          [BitVec.ofNat 8 (s.line l).unread,
            (if (s.line l).offHook then 1 else 0) +
              match (s.line l).ring.state with
              | .idle => 0x00
              | .on _ _ => 0x10
              | .off _ _ => 0x20
              | .cidDelay _ _ _ => 0x30
              | .cidSend _ _ => 0x40] ++
          contextStatus (s.line l).background ++ contextStatus (s.line l).foreground ++
          nat2 (s.line l).stats.late ++ nat2 (s.line l).stats.early ++ nat2 (s.line l).stats.duplicate ++
          nat2 (s.line l).stats.concealed ++ nat2 (s.line l).stats.suppressed ++ nat2 (s.line l).stats.slipsPlus ++
          nat2 (s.line l).stats.slipsMinus ++ nat2 (s.line l).stats.overruns →
      bytes.length = 35 ∧ exec (.lineStatus k line) s = .next (s.answer k .ok bytes)) ∧
  ∀ s : State,
    (s.Hears .control → exec (.readLinkStatus .control) s = .next (s.answer .control .ok
      ([(if s.cLink.frame then 1 else 0) + (if s.cLink.unknown then 2 else 0), if s.cLink.irq.mode = .level then 0 else 1,
        if s.timebase = .held then 0 else 1, BitVec.ofNat 8 s.events.length] ++ bytes4 s.g))) ∧
    (s.Hears .media →
      (s.deposit = none → exec (.readLinkStatus .media) s = .next (s.answer .media .ok
        [(if s.mLink.frame then 1 else 0) + (if s.mLink.unknown then 2 else 0) + (if s.sequence then 4 else 0),
          if s.mLink.irq.mode = .level then 0 else 1, 0, 0, 0, 0, 0])) ∧
      ∀ d, s.deposit = some d → exec (.readLinkStatus .media) s = .next (s.answer .media .ok
        ([(if s.mLink.frame then 1 else 0) + (if s.mLink.unknown then 2 else 0) + (if s.sequence then 4 else 0),
          if s.mLink.irq.mode = .level then 0 else 1, if d.broken then 2 else 1, maskByte d.mask, BitVec.ofNat 8 d.cells] ++
          nat2 d.samples.length)))

/-- CLEAR LINK STATUS clears every sticky flag of its own link and none of the other's (R174); SET IRQ MODE sets the mode of its own output, a
change dropping owed pulses and any pulse in progress, and refuses a mode that is neither (R104, R182). An unknown code answers UNKNOWN and
sets the flag of its link (R173); a truncated frame answers nothing and sets FRAME, and that of DEPOSIT DATA alone reaches other state: it
marks an open deposit broken (R52, R172). A frame under way on a link when RESET returned high is ignored: it is taken as no request, sets no
flag and is answered nothing (R183); that the response then reads as no bytes, and that it is the link's next command, is the model's
choice (log entries 6 and 7). -/
def Obligations.LinkFlagsAndModes : Prop :=
  (∀ s : State, s.Hears .control → s.Hears .media →
    exec (.clearLinkStatus .control) s =
      .next ({ s with cLink := { s.cLink with frame := false, unknown := false, response := [0] } }) ∧
    exec (.clearLinkStatus .media) s =
      .next ({ s with mLink := { s.mLink with frame := false, unknown := false, response := [0] }, sequence := false }) ∧
    (∀ k, (∀ mode, 2 ≤ mode.toNat → exec (.setIrqMode k mode) s = .next (s.refuse k .range)) ∧
      ((s.link k).irq.mode = .level →
        exec (.setIrqMode k 1) s = .next (s.setLink k { s.link k with irq := ⟨.pulse, 0, 0, 0⟩, response := [0, 1] }) ∧
        exec (.setIrqMode k 0) s = .next (s.answer k .ok [0])) ∧
      ((s.link k).irq.mode = .pulse →
        exec (.setIrqMode k 0) s = .next (s.setLink k { s.link k with irq := ⟨.level, 0, 0, 0⟩, response := [0, 0] }) ∧
        exec (.setIrqMode k 1) s = .next (s.answer k .ok [1]))) ∧
    (∀ k code, knownCode k code = false → exec (.unknownCode k code) s =
      .next (s.setLink k { s.link k with unknown := true, response := [0x0B] })) ∧
    (∀ k code, (argumentCodes k).contains code = true → k = .control ∨ code ≠ 0x41 → exec (.truncatedFrame k code) s =
      .next (s.setLink k { s.link k with frame := true, response := [] })) ∧
    exec (.truncatedFrame .media 0x41) s = .next
      ({ s with
        deposit := s.deposit.map fun d => { d with broken := true }
        mLink := { s.mLink with frame := true, response := [] } })) ∧
  ∀ (s : State) (k : Link) (c : Instr) (bytes : List Byte), s.resetLow = false → s.job = none → (s.link k).ignoring = true →
    frameOf c = some (k, bytes) → WellFormed c = true →
    exec c s = .next (s.setLink k { s.link k with ignoring := false, response := [] })

/-- The Event Queue. A record that arrives joins the queue while it holds fewer than 63; the one that would be the 64th is discarded, and an
OVERFLOW record of its stamp and of no line, counting 1, takes the place; while the queue holds one, each arrival is discarded and counted in it, at
most 65535, its place and stamp unchanged. Each record appended, OVERFLOW too, owes a pulse of CIRQ in PULSE mode, and a discard owes none
(R178, R179, R181). An event's records arrive in their order. READ EVENTS with a maximum of 1..16 removes the r = min(maximum, records held)
oldest records and answers r and the records of 10 bytes each, oldest first: kind, line or 0xFF, stamp, and the four detail bytes of the kind
(R178); a maximum out of range is refused RANGE (R180). -/
def Obligations.EventQueueArrivalsAndReads : Prop :=
  (∀ (s : State) (r : EventRecord),
    (overflowed s.events = false → s.arrive r = { s with
      events := s.events ++ [if s.events.length < 63 then r else ⟨.overflow 1, none, r.stamp⟩]
      cLink := { s.cLink with irq := { s.cLink.irq with
        owed := if s.cLink.irq.mode = .pulse then min 255 (s.cLink.irq.owed + 1) else s.cLink.irq.owed } } }) ∧
    ∀ q n line stamp, s.events = q ++ [⟨.overflow n, line, stamp⟩] →
      s.arrive r = { s with events := q ++ [⟨.overflow (min 65535 (n + 1)), line, stamp⟩] }) ∧
  (∀ (s : State) (l : Fin 4) (stamp : Word32) (e : Event) (es : List Event),
    s.queue l stamp [] = s ∧ s.queue l stamp (e :: es) = (s.arrive ⟨e, some l, stamp⟩).queue l stamp es) ∧
  (∀ (s : State) (l : Fin 4) (begun remaining : Nat), s.resetLow = false → (s.line l).ringDue = true →
    (s.line l).ring.state = .on begun remaining → remaining ≤ 1 → (s.line l).ring.cid = none → (s.line l).ring.bursts = begun →
    begun ≠ 0 → Answers (.burstEnd l) s fun t =>
      t.events = (s.arrive ⟨.ringDone .count, some l, s.g - 1⟩).events ∧ t.cLink = (s.arrive ⟨.ringDone .count, some l, s.g - 1⟩).cLink ∧
      (overflowed s.events = false → s.events.length = 63 → t.events = s.events ++ [⟨.overflow 1, none, s.g - 1⟩])) ∧
  ∀ (s : State) (maximum : Byte), s.Hears .control →
    (maximum.toNat = 0 ∨ 16 < maximum.toNat → exec (.readEvents maximum) s = .next (s.refuse .control .range)) ∧
    (1 ≤ maximum.toNat → maximum.toNat ≤ 16 → Answers (.readEvents maximum) s fun t =>
      t.events = s.events.drop (min maximum.toNat s.events.length) ∧
      s.Answered t .control (0 :: BitVec.ofNat 8 (min maximum.toNat s.events.length) ::
        (s.events.take (min maximum.toNat s.events.length)).flatMap fun r : EventRecord =>
          [(eventFields r.event).1, (r.line.map fun l => BitVec.ofNat 8 l.val).getD 0xFF] ++ bytes4 r.stamp ++
            (eventFields r.event).2) ∧
      t.cLink.response.length = 2 + 10 * min maximum.toNat s.events.length ∧
      t.lines = s.lines ∧ t.store = s.store ∧ s.PartKept t)

/-- In LEVEL mode MIRQ is asserted exactly while some ENABLED line has an unread count at or above its threshold, and CIRQ exactly while the
Event Queue holds a record (R102, R181); that MIRQ then follows DISABLE LINE of the Control Link too is R102, taken before a sentence of R181
(log entry 31). In PULSE mode an output is asserted during the low part of a pulse alone. An owed pulse of either interrupt output is low for four REFCLK periods, and the owed count falls when the low part ends; four periods high follow
before the next begins (R103, R181). That the high part is exactly four periods, where the rules say at least four, and that a
pulse advances by the edges its command carries, is the model's choice (log entry 17). -/
def Obligations.InterruptOutputsFollowState : Prop :=
  (∀ s : State,
    (s.mLink.irq.mode = .level → (s.mirq = true ↔ ∃ l, (s.line l).enabled = true ∧ (s.line l).capThreshold ≤ (s.line l).unread)) ∧
    (s.cLink.irq.mode = .level → (s.cirq = true ↔ s.events ≠ [])) ∧
    (s.mLink.irq.mode = .pulse → (s.mirq = true ↔ 1 ≤ s.mLink.irq.low)) ∧
    (s.cLink.irq.mode = .pulse → (s.cirq = true ↔ 1 ≤ s.cLink.irq.low))) ∧
  ∀ (s : State) (n : Nat), s.resetLow = false →
    (s.mLink.irq = ⟨.pulse, n + 1, 0, 0⟩ →
      (∀ p, 1 ≤ p → p ≤ 4 → Answers (.mirqPulse p) s fun t => t.mirq = true ∧ t.mLink.irq.owed = n + 1) ∧
      (∀ p, 5 ≤ p → p ≤ 8 → Answers (.mirqPulse p) s fun t => t.mirq = false ∧ t.mLink.irq.owed = n) ∧
      Answers (.mirqPulse 8) s fun t => t = { s with mLink := { s.mLink with irq := ⟨.pulse, n, 0, 0⟩ } }) ∧
    (s.cLink.irq = ⟨.pulse, n + 1, 0, 0⟩ →
      (∀ p, 1 ≤ p → p ≤ 4 → Answers (.cirqPulse p) s fun t => t.cirq = true ∧ t.cLink.irq.owed = n + 1) ∧
      (∀ p, 5 ≤ p → p ≤ 8 → Answers (.cirqPulse p) s fun t => t.cirq = false ∧ t.cLink.irq.owed = n) ∧
      Answers (.cirqPulse 8) s fun t => t = { s with cLink := { s.cLink with irq := ⟨.pulse, n, 0, 0⟩ } })

/-! ### Laws every step keeps -/

/-- The state after reset obeys every law below. -/
def Obligations.ResetObeysLaws : Prop :=
  State.reset.StoreLaw ∧ State.reset.SlotLaw ∧ State.reset.PartitionLaw ∧ State.reset.EachLine Line.DisabledLaw ∧
    State.reset.EachLine Line.ContextLaw ∧ State.reset.EachLine Line.RingTripLaw ∧ State.reset.EachLine Line.SlipLaw ∧
    State.reset.EachLine Line.IndexLaw ∧ QueueLaw State.reset.events ∧ State.reset.DepositLaw ∧ State.reset.ToneLaw ∧
    State.reset.ProgramLaw ∧
    State.reset.SampleLaw ∧ State.reset.IdleLaw ∧ State.reset.EachLine Line.StatsLaw ∧ State.reset.EachLine Line.FskLaw ∧
    State.reset.EachLine Line.RingLaw ∧ State.reset.RecordLaw ∧ State.reset.EachLine Line.CidLaw ∧ State.reset.EachLine Line.DepthLaw

/-- The Sample Store keeps its canonical form at every step (the form is the model's), and a playout slot's sources and kinds are empty
exactly when it is EMPTY (R20). -/
def Obligations.StoreAndSlotsKept : Prop := Kept State.StoreLaw ∧ Kept fun s => s.StoreLaw ∧ s.SlotLaw

/-- A cell is 40 samples wherever the part holds one: in the store, the fill pattern, the write of a commit or fill under way, the playout halves,
the repeat buffer and a capture half that waits to be stored; a filling capture half holds as many as frames of the global cell have gone
(R10, R11, R15, R47, R69, R72, R95). -/
def Obligations.CellsHoldFortySamples : Prop := Kept fun s => s.StoreLaw ∧ s.SampleLaw

/-- An ENABLED line in IDLE has every source UNANCHORED and every slot of its ring EMPTY, after every step (R34, R71). -/
def Obligations.IdleLineIsEmpty : Prop :=
  Kept fun s => s.StoreLaw ∧ s.PartitionLaw ∧ s.EachLine Line.IndexLaw ∧ s.IdleLaw

/-- Configured rings lie within the store and no cell belongs to two, after every step (R17). -/
def Obligations.PartitionKept : Prop := Kept State.PartitionLaw

/-- The ring indices stay in their rings, and the unread records are those from the read index to the write index, each place holding a capture
record (R23, R25, R95, R98). -/
def Obligations.RingIndicesKept : Prop :=
  (Kept fun s => s.EachLine Line.RingLaw ∧ s.EachLine Line.IndexLaw) ∧
    Kept fun s => s.StoreLaw ∧ s.PartitionLaw ∧ s.EachLine Line.IndexLaw ∧ s.RecordLaw

/-- A DISABLED line holds what a disable leaves and nothing else, after every step (R6, R13, R14). The values it holds where R13 gives none (horizon, slot index,
playout state, halves) are the model's choice (log entries 13 and 26). -/
def Obligations.DisabledLineHoldsNothing : Prop := Kept (State.EachLine Line.DisabledLaw)

/-- A line never has both contexts ACTIVE: a foreground is ACTIVE, a background SUSPENDED exactly while a foreground exists (R112). A background is
of a program and a CID is EXCLUSIVE; an on-hook CID has its context in the foreground exactly while it sends, and while it is scheduled
there is no foreground (R114, R133, R134, R136, R137). -/
def Obligations.ContextStackKept : Prop :=
  Kept (State.EachLine Line.ContextLaw) ∧ Kept fun s => s.EachLine Line.RingTripLaw ∧ s.EachLine Line.CidLaw

/-- RINGEN of a line is never asserted while its qualified hook state is OFF-HOOK: after every step an OFF-HOOK line's Ring Controller is IDLE,
and so its RINGEN is low (R151, R155). -/
def Obligations.NeverRingsOffHook : Prop :=
  Kept (State.EachLine Line.RingTripLaw) ∧ ∀ L : Line, L.RingTripLaw → L.offHook = true → L.ringen = false

/-- The Event Queue holds at most 64 records, at most one of them OVERFLOW and that one the newest, after every step (R179). -/
def Obligations.EventQueueKept : Prop := Kept fun s => QueueLaw s.events

/-- The pending slip stays within −40..+40 (R82); the deposit buffer, the tone table with its cursor and staging record, and the program
table keep their sizes and ranges (R47, R105, R108); the statistics stay in 0..65535 (R89), the bit accumulator of an FSK below 20 (R130),
and the depths and the threshold of an ENABLED line in the ranges of its rings (R8, R85). -/
def Obligations.RangesAndTablesKept : Prop :=
  Kept (State.EachLine Line.SlipLaw) ∧ Kept State.DepositLaw ∧ Kept State.ToneLaw ∧ Kept State.ProgramLaw ∧
    Kept (State.EachLine Line.StatsLaw) ∧ Kept (State.EachLine Line.FskLaw) ∧
    Kept fun s => s.EachLine Line.RingLaw ∧ s.EachLine Line.DepthLaw

/-- The horizon of a line that stays ENABLED changes by no command but its loads, and by a frame that takes a load left over, each time by an
increase of 40 with hs going on by 1 modulo Lp (R10, R24). That a frame takes a load left over (log entry 3), and that the rows which name a
part of a load are loads (log entry 4), is the model's choice. -/
def Obligations.HorizonOnlyAdvancesByLoads : Prop :=
  ∀ (c : Instr) (s t : State) (l : Fin 4), exec c s = .next t → NoReset c → (s.line l).enabled = true →
    (t.line l).enabled = true →
    ((t.line l).horizon = (s.line l).horizon ∧ (t.line l).hs = (s.line l).hs) ∨
      ((c ∈ loadRows l ∨ ∃ hrx hook, c = .highwayFrame hrx hook) ∧ (s.line l).due.load = true ∧
        (t.line l).horizon = (s.line l).horizon + 40 ∧ (t.line l).hs = ((s.line l).hs + 1) % (s.line l).lp)

/-- A request of one link reaches neither the flags, mode, owed pulses nor response of the other; an M-link request queues no event, and a C-link
request reaches neither the deposit buffer, nor a write under way, nor SEQUENCE (R174, R181). A COMMIT DEPOSIT or FILL CELLS that takes some of its
lines only, an operand of the model's choice (log entry 18), is a Media Link request like a whole one. -/
def Obligations.RequestsKeepOtherLink : Prop :=
  (∀ (c : Instr) (s t : State), (∃ n, c = .commitDeposit n) ∨ (∃ mask source time control gain n,
      c = .fillCells mask source time control gain n) → exec c s = .next t → t.cLink = s.cLink ∧ t.events = s.events) ∧
  ∀ (c : Instr) (s t : State) (bytes : List Byte), exec c s = .next t →
    (frameOf c = some (.media, bytes) → t.cLink = s.cLink ∧ t.events = s.events) ∧
    (frameOf c = some (.control, bytes) → t.mLink = s.mLink ∧ t.sequence = s.sequence ∧ t.deposit = s.deposit ∧ t.job = s.job)

/-! ### Frames -/

/-- Reading and writing frames agree: the frame of a request is read as that request, bytes after its last argument are ignored, and a frame cut
before its last argument byte is read as truncated; and whatever bytes come, what is read is a command that can occur whose frame is the
front of those bytes, unless it is truncated (R171 to R173, R175). Frames written out from the tables of R175 are read as the requests they
carry: the OPEN DEPOSIT, the truncated DEPOSIT DATA of 11.6, and one of each other shape. That a WRITE TONES frame
which ends at a start argument out of range is a whole request, refused there, is the model's reading (log entry 25). -/
def Obligations.FramesReadBackAsWritten : Prop :=
  (∀ (c : Instr) (k : Link) (code : Byte) (args : List Byte), WellFormed c = true → frameOf c = some (k, code :: args) →
    readFrame k (code :: args) = some c ∧
    ((∀ j x, c ≠ .truncatedFrame j x) → ∀ more, readFrame k (code :: (args ++ more)) = some c) ∧
    ∀ n, n < args.length → readFrame k (code :: args.take n) = some (.truncatedFrame k code)) ∧
  (∀ (k : Link) (code : Byte) (args : List Byte), ∃ c written,
    readFrame k (code :: args) = some c ∧ WellFormed c = true ∧ frameOf c = some (k, code :: written) ∧
    ((∀ j x, c ≠ .truncatedFrame j x) → ∃ more, args = written ++ more)) ∧
  readFrame .media [0x40, 0x02, 0x00, 0x00, 0x00, 0x0F, 0xA0, 0x10, 0x0F] = some (.openDeposit 2 0 4000 0x10 0x0F) ∧
  readFrame .media [0x41, 0x00, 0x28, 0x12, 0x34] = some (.truncatedFrame .media 0x41) ∧
  readFrame .control [0x02, 0x01, 0x00, 0x50, 0x00, 0x40, 0x00, 0x90, 0x10] = some (.configureLine 1 80 64 144 16) ∧
  readFrame .control [0x08, 0x04, 0x03, 0x01, 0x5E, 0x01, 0xB8, 0x00, 0x1A] = some (.writeTones 4 3 [350, 440, 26]) ∧
  readFrame .control [0x0C, 0x01, 0x04, 0x02, 0x30, 0x33] = some (.loadCid 1 4 2 [48, 51]) ∧
  readFrame .media [0x47, 0x00, 0xFF, 0x01] = some (.realignWithClear 0 0xFF 1) ∧
  readFrame .media [0x01] = some (.unknownCode .media 0x01) ∧
  readFrame .control [0x7C] = some (.readLinkStatus .control)
end

