-- ==== Sys2Proof/Laws/Four.lean ====
section
/-! SUPPORT. The laws of `Four`: reading after writing, copies and maps. -/

namespace Sys2Proof

@[simp] theorem Four.get_set_same {α : Type} (f : Four α) (i : Fin 4) (x : α) : (f.set i x).get i = x := by
  fin_cases i <;> rfl

theorem Four.get_set_ne {α : Type} (f : Four α) {i j : Fin 4} (x : α) (h : j ≠ i) : (f.set i x).get j = f.get j := by
  fin_cases i <;> fin_cases j <;> first | rfl | exact absurd rfl h

@[simp] theorem Four.get_all {α : Type} (x : α) (i : Fin 4) : (Four.all x).get i = x := by
  fin_cases i <;> rfl

@[simp] theorem Four.get_map {α β : Type} (g : α → β) (f : Four α) (i : Fin 4) : (f.map g).get i = g (f.get i) := by
  fin_cases i <;> rfl

@[simp] theorem Four.set_get {α : Type} (f : Four α) (i : Fin 4) : f.set i (f.get i) = f := by
  fin_cases i <;> rfl

@[simp] theorem Four.set_set {α : Type} (f : Four α) (i : Fin 4) (x y : α) : (f.set i x).set i y = f.set i y := by
  fin_cases i <;> rfl

theorem Four.ext_get {α : Type} {f g : Four α} (h : ∀ i, f.get i = g.get i) : f = g := by
  have h0 := h 0
  have h1 := h 1
  have h2 := h 2
  have h3 := h 3
  cases f
  cases g
  simp_all [Four.get]

/-- What a write of one of the four gives at any number. -/
theorem Four.get_set {α : Type} (f : Four α) (i j : Fin 4) (x : α) :
    (f.set i x).get j = if j = i then x else f.get j := by
  split
  · subst j
    exact f.get_set_same i x
  · exact f.get_set_ne x (by assumption)

/-- A property of all four is a property of each. -/
theorem Four.forall_set {α : Type} {P : α → Prop} {f : Four α} {i : Fin 4} {x : α} (h : ∀ j, P (f.get j)) (hx : P x) :
    ∀ j, P ((f.set i x).get j) := by
  intro j
  rw [Four.get_set]
  split
  · exact hx
  · exact h j

@[simp] theorem mem_four (l : Fin 4) : l ∈ four := by
  fin_cases l <;> decide

end Sys2Proof
end

