-- ==== Sys2Proof/Laws/State.lean ====
section
/-! SUPPORT. One lemma per field of the state per update: what an update leaves and what it changes. No proof needs to unfold one. -/

namespace Sys2Proof.Machine

variable (s : State)

@[simp] theorem State.setLine_resetLow (l : Fin 4) (L : Line) : (s.setLine l L).resetLow = s.resetLow := rfl
@[simp] theorem State.setLine_timebase (l : Fin 4) (L : Line) : (s.setLine l L).timebase = s.timebase := rfl
@[simp] theorem State.setLine_g (l : Fin 4) (L : Line) : (s.setLine l L).g = s.g := rfl
@[simp] theorem State.setLine_frame (l : Fin 4) (L : Line) : (s.setLine l L).frame = s.frame := rfl
@[simp] theorem State.setLine_htx (l : Fin 4) (L : Line) : (s.setLine l L).htx = s.htx := rfl
@[simp] theorem State.setLine_lines (l : Fin 4) (L : Line) : (s.setLine l L).lines = s.lines.set l L := rfl
@[simp] theorem State.setLine_store (l : Fin 4) (L : Line) : (s.setLine l L).store = s.store := rfl
@[simp] theorem State.setLine_fillPattern (l : Fin 4) (L : Line) : (s.setLine l L).fillPattern = s.fillPattern := rfl
@[simp] theorem State.setLine_deposit (l : Fin 4) (L : Line) : (s.setLine l L).deposit = s.deposit := rfl
@[simp] theorem State.setLine_job (l : Fin 4) (L : Line) : (s.setLine l L).job = s.job := rfl
@[simp] theorem State.setLine_tones (l : Fin 4) (L : Line) : (s.setLine l L).tones = s.tones := rfl
@[simp] theorem State.setLine_toneCursor (l : Fin 4) (L : Line) : (s.setLine l L).toneCursor = s.toneCursor := rfl
@[simp] theorem State.setLine_toneStaging (l : Fin 4) (L : Line) : (s.setLine l L).toneStaging = s.toneStaging := rfl
@[simp] theorem State.setLine_programs (l : Fin 4) (L : Line) : (s.setLine l L).programs = s.programs := rfl
@[simp] theorem State.setLine_events (l : Fin 4) (L : Line) : (s.setLine l L).events = s.events := rfl
@[simp] theorem State.setLine_cLink (l : Fin 4) (L : Line) : (s.setLine l L).cLink = s.cLink := rfl
@[simp] theorem State.setLine_mLink (l : Fin 4) (L : Line) : (s.setLine l L).mLink = s.mLink := rfl
@[simp] theorem State.setLine_sequence (l : Fin 4) (L : Line) : (s.setLine l L).sequence = s.sequence := rfl
@[simp] theorem State.setLine_pending (l : Fin 4) (L : Line) : (s.setLine l L).pending = s.pending := rfl

@[simp] theorem State.setStore_resetLow (st : Store) : (s.setStore st).resetLow = s.resetLow := rfl
@[simp] theorem State.setStore_timebase (st : Store) : (s.setStore st).timebase = s.timebase := rfl
@[simp] theorem State.setStore_g (st : Store) : (s.setStore st).g = s.g := rfl
@[simp] theorem State.setStore_frame (st : Store) : (s.setStore st).frame = s.frame := rfl
@[simp] theorem State.setStore_htx (st : Store) : (s.setStore st).htx = s.htx := rfl
@[simp] theorem State.setStore_lines (st : Store) : (s.setStore st).lines = s.lines := rfl
@[simp] theorem State.setStore_store (st : Store) : (s.setStore st).store = st := rfl
@[simp] theorem State.setStore_fillPattern (st : Store) : (s.setStore st).fillPattern = s.fillPattern := rfl
@[simp] theorem State.setStore_deposit (st : Store) : (s.setStore st).deposit = s.deposit := rfl
@[simp] theorem State.setStore_job (st : Store) : (s.setStore st).job = s.job := rfl
@[simp] theorem State.setStore_tones (st : Store) : (s.setStore st).tones = s.tones := rfl
@[simp] theorem State.setStore_toneCursor (st : Store) : (s.setStore st).toneCursor = s.toneCursor := rfl
@[simp] theorem State.setStore_toneStaging (st : Store) : (s.setStore st).toneStaging = s.toneStaging := rfl
@[simp] theorem State.setStore_programs (st : Store) : (s.setStore st).programs = s.programs := rfl
@[simp] theorem State.setStore_events (st : Store) : (s.setStore st).events = s.events := rfl
@[simp] theorem State.setStore_cLink (st : Store) : (s.setStore st).cLink = s.cLink := rfl
@[simp] theorem State.setStore_mLink (st : Store) : (s.setStore st).mLink = s.mLink := rfl
@[simp] theorem State.setStore_sequence (st : Store) : (s.setStore st).sequence = s.sequence := rfl
@[simp] theorem State.setStore_pending (st : Store) : (s.setStore st).pending = s.pending := rfl

@[simp] theorem State.setDeposit_resetLow (d : Option Deposit) : (s.setDeposit d).resetLow = s.resetLow := rfl
@[simp] theorem State.setDeposit_timebase (d : Option Deposit) : (s.setDeposit d).timebase = s.timebase := rfl
@[simp] theorem State.setDeposit_g (d : Option Deposit) : (s.setDeposit d).g = s.g := rfl
@[simp] theorem State.setDeposit_frame (d : Option Deposit) : (s.setDeposit d).frame = s.frame := rfl
@[simp] theorem State.setDeposit_htx (d : Option Deposit) : (s.setDeposit d).htx = s.htx := rfl
@[simp] theorem State.setDeposit_lines (d : Option Deposit) : (s.setDeposit d).lines = s.lines := rfl
@[simp] theorem State.setDeposit_store (d : Option Deposit) : (s.setDeposit d).store = s.store := rfl
@[simp] theorem State.setDeposit_fillPattern (d : Option Deposit) : (s.setDeposit d).fillPattern = s.fillPattern := rfl
@[simp] theorem State.setDeposit_deposit (d : Option Deposit) : (s.setDeposit d).deposit = d := rfl
@[simp] theorem State.setDeposit_job (d : Option Deposit) : (s.setDeposit d).job = s.job := rfl
@[simp] theorem State.setDeposit_tones (d : Option Deposit) : (s.setDeposit d).tones = s.tones := rfl
@[simp] theorem State.setDeposit_toneCursor (d : Option Deposit) : (s.setDeposit d).toneCursor = s.toneCursor := rfl
@[simp] theorem State.setDeposit_toneStaging (d : Option Deposit) : (s.setDeposit d).toneStaging = s.toneStaging := rfl
@[simp] theorem State.setDeposit_programs (d : Option Deposit) : (s.setDeposit d).programs = s.programs := rfl
@[simp] theorem State.setDeposit_events (d : Option Deposit) : (s.setDeposit d).events = s.events := rfl
@[simp] theorem State.setDeposit_cLink (d : Option Deposit) : (s.setDeposit d).cLink = s.cLink := rfl
@[simp] theorem State.setDeposit_mLink (d : Option Deposit) : (s.setDeposit d).mLink = s.mLink := rfl
@[simp] theorem State.setDeposit_sequence (d : Option Deposit) : (s.setDeposit d).sequence = s.sequence := rfl
@[simp] theorem State.setDeposit_pending (d : Option Deposit) : (s.setDeposit d).pending = s.pending := rfl

@[simp] theorem State.setSequence_resetLow : (s.setSequence).resetLow = s.resetLow := rfl
@[simp] theorem State.setSequence_timebase : (s.setSequence).timebase = s.timebase := rfl
@[simp] theorem State.setSequence_g : (s.setSequence).g = s.g := rfl
@[simp] theorem State.setSequence_frame : (s.setSequence).frame = s.frame := rfl
@[simp] theorem State.setSequence_htx : (s.setSequence).htx = s.htx := rfl
@[simp] theorem State.setSequence_lines : (s.setSequence).lines = s.lines := rfl
@[simp] theorem State.setSequence_store : (s.setSequence).store = s.store := rfl
@[simp] theorem State.setSequence_fillPattern : (s.setSequence).fillPattern = s.fillPattern := rfl
@[simp] theorem State.setSequence_deposit : (s.setSequence).deposit = s.deposit := rfl
@[simp] theorem State.setSequence_job : (s.setSequence).job = s.job := rfl
@[simp] theorem State.setSequence_tones : (s.setSequence).tones = s.tones := rfl
@[simp] theorem State.setSequence_toneCursor : (s.setSequence).toneCursor = s.toneCursor := rfl
@[simp] theorem State.setSequence_toneStaging : (s.setSequence).toneStaging = s.toneStaging := rfl
@[simp] theorem State.setSequence_programs : (s.setSequence).programs = s.programs := rfl
@[simp] theorem State.setSequence_events : (s.setSequence).events = s.events := rfl
@[simp] theorem State.setSequence_cLink : (s.setSequence).cLink = s.cLink := rfl
@[simp] theorem State.setSequence_mLink : (s.setSequence).mLink = s.mLink := rfl
@[simp] theorem State.setSequence_sequence : (s.setSequence).sequence = true := rfl
@[simp] theorem State.setSequence_pending : (s.setSequence).pending = s.pending := rfl

@[simp] theorem State.withPending_resetLow (q : List Instr) : (s.withPending q).resetLow = s.resetLow := rfl
@[simp] theorem State.withPending_timebase (q : List Instr) : (s.withPending q).timebase = s.timebase := rfl
@[simp] theorem State.withPending_g (q : List Instr) : (s.withPending q).g = s.g := rfl
@[simp] theorem State.withPending_frame (q : List Instr) : (s.withPending q).frame = s.frame := rfl
@[simp] theorem State.withPending_htx (q : List Instr) : (s.withPending q).htx = s.htx := rfl
@[simp] theorem State.withPending_lines (q : List Instr) : (s.withPending q).lines = s.lines := rfl
@[simp] theorem State.withPending_store (q : List Instr) : (s.withPending q).store = s.store := rfl
@[simp] theorem State.withPending_fillPattern (q : List Instr) : (s.withPending q).fillPattern = s.fillPattern := rfl
@[simp] theorem State.withPending_deposit (q : List Instr) : (s.withPending q).deposit = s.deposit := rfl
@[simp] theorem State.withPending_job (q : List Instr) : (s.withPending q).job = s.job := rfl
@[simp] theorem State.withPending_tones (q : List Instr) : (s.withPending q).tones = s.tones := rfl
@[simp] theorem State.withPending_toneCursor (q : List Instr) : (s.withPending q).toneCursor = s.toneCursor := rfl
@[simp] theorem State.withPending_toneStaging (q : List Instr) : (s.withPending q).toneStaging = s.toneStaging := rfl
@[simp] theorem State.withPending_programs (q : List Instr) : (s.withPending q).programs = s.programs := rfl
@[simp] theorem State.withPending_events (q : List Instr) : (s.withPending q).events = s.events := rfl
@[simp] theorem State.withPending_cLink (q : List Instr) : (s.withPending q).cLink = s.cLink := rfl
@[simp] theorem State.withPending_mLink (q : List Instr) : (s.withPending q).mLink = s.mLink := rfl
@[simp] theorem State.withPending_sequence (q : List Instr) : (s.withPending q).sequence = s.sequence := rfl
@[simp] theorem State.withPending_pending (q : List Instr) : (s.withPending q).pending = q := rfl

@[simp] theorem State.boundary_resetLow : (s.boundary).resetLow = s.resetLow := rfl
@[simp] theorem State.boundary_timebase : (s.boundary).timebase = s.timebase := rfl
@[simp] theorem State.boundary_g : (s.boundary).g = s.g + 1 := rfl
@[simp] theorem State.boundary_frame : (s.boundary).frame = 0 := rfl
@[simp] theorem State.boundary_htx : (s.boundary).htx = s.htx := rfl
@[simp] theorem State.boundary_lines : (s.boundary).lines = s.lines.map Line.boundary := rfl
@[simp] theorem State.boundary_store : (s.boundary).store = s.store := rfl
@[simp] theorem State.boundary_fillPattern : (s.boundary).fillPattern = s.fillPattern := rfl
@[simp] theorem State.boundary_deposit : (s.boundary).deposit = s.deposit := rfl
@[simp] theorem State.boundary_job : (s.boundary).job = s.job := rfl
@[simp] theorem State.boundary_tones : (s.boundary).tones = s.tones := rfl
@[simp] theorem State.boundary_toneCursor : (s.boundary).toneCursor = s.toneCursor := rfl
@[simp] theorem State.boundary_toneStaging : (s.boundary).toneStaging = s.toneStaging := rfl
@[simp] theorem State.boundary_programs : (s.boundary).programs = s.programs := rfl
@[simp] theorem State.boundary_events : (s.boundary).events = s.events := rfl
@[simp] theorem State.boundary_cLink : (s.boundary).cLink = s.cLink := rfl
@[simp] theorem State.boundary_mLink : (s.boundary).mLink = s.mLink := rfl
@[simp] theorem State.boundary_sequence : (s.boundary).sequence = s.sequence := rfl
@[simp] theorem State.boundary_pending : (s.boundary).pending = s.pending := rfl

@[simp] theorem State.setLink_resetLow (k : Link) (x : LinkState) : (s.setLink k x).resetLow = s.resetLow := by cases k <;> rfl
@[simp] theorem State.setLink_timebase (k : Link) (x : LinkState) : (s.setLink k x).timebase = s.timebase := by cases k <;> rfl
@[simp] theorem State.setLink_g (k : Link) (x : LinkState) : (s.setLink k x).g = s.g := by cases k <;> rfl
@[simp] theorem State.setLink_frame (k : Link) (x : LinkState) : (s.setLink k x).frame = s.frame := by cases k <;> rfl
@[simp] theorem State.setLink_htx (k : Link) (x : LinkState) : (s.setLink k x).htx = s.htx := by cases k <;> rfl
@[simp] theorem State.setLink_lines (k : Link) (x : LinkState) : (s.setLink k x).lines = s.lines := by cases k <;> rfl
@[simp] theorem State.setLink_store (k : Link) (x : LinkState) : (s.setLink k x).store = s.store := by cases k <;> rfl
@[simp] theorem State.setLink_fillPattern (k : Link) (x : LinkState) : (s.setLink k x).fillPattern = s.fillPattern := by cases k <;> rfl
@[simp] theorem State.setLink_deposit (k : Link) (x : LinkState) : (s.setLink k x).deposit = s.deposit := by cases k <;> rfl
@[simp] theorem State.setLink_job (k : Link) (x : LinkState) : (s.setLink k x).job = s.job := by cases k <;> rfl
@[simp] theorem State.setLink_tones (k : Link) (x : LinkState) : (s.setLink k x).tones = s.tones := by cases k <;> rfl
@[simp] theorem State.setLink_toneCursor (k : Link) (x : LinkState) : (s.setLink k x).toneCursor = s.toneCursor := by cases k <;> rfl
@[simp] theorem State.setLink_toneStaging (k : Link) (x : LinkState) : (s.setLink k x).toneStaging = s.toneStaging := by cases k <;> rfl
@[simp] theorem State.setLink_programs (k : Link) (x : LinkState) : (s.setLink k x).programs = s.programs := by cases k <;> rfl
@[simp] theorem State.setLink_events (k : Link) (x : LinkState) : (s.setLink k x).events = s.events := by cases k <;> rfl
@[simp] theorem State.setLink_sequence (k : Link) (x : LinkState) : (s.setLink k x).sequence = s.sequence := by cases k <;> rfl
@[simp] theorem State.setLink_pending (k : Link) (x : LinkState) : (s.setLink k x).pending = s.pending := by cases k <;> rfl

@[simp] theorem State.answer_resetLow (k : Link) (r : Result) (fs : List Byte) : (s.answer k r fs).resetLow = s.resetLow := by cases k <;> rfl
@[simp] theorem State.answer_timebase (k : Link) (r : Result) (fs : List Byte) : (s.answer k r fs).timebase = s.timebase := by cases k <;> rfl
@[simp] theorem State.answer_g (k : Link) (r : Result) (fs : List Byte) : (s.answer k r fs).g = s.g := by cases k <;> rfl
@[simp] theorem State.answer_frame (k : Link) (r : Result) (fs : List Byte) : (s.answer k r fs).frame = s.frame := by cases k <;> rfl
@[simp] theorem State.answer_htx (k : Link) (r : Result) (fs : List Byte) : (s.answer k r fs).htx = s.htx := by cases k <;> rfl
@[simp] theorem State.answer_lines (k : Link) (r : Result) (fs : List Byte) : (s.answer k r fs).lines = s.lines := by cases k <;> rfl
@[simp] theorem State.answer_store (k : Link) (r : Result) (fs : List Byte) : (s.answer k r fs).store = s.store := by cases k <;> rfl
@[simp] theorem State.answer_fillPattern (k : Link) (r : Result) (fs : List Byte) : (s.answer k r fs).fillPattern = s.fillPattern := by cases k <;> rfl
@[simp] theorem State.answer_deposit (k : Link) (r : Result) (fs : List Byte) : (s.answer k r fs).deposit = s.deposit := by cases k <;> rfl
@[simp] theorem State.answer_job (k : Link) (r : Result) (fs : List Byte) : (s.answer k r fs).job = s.job := by cases k <;> rfl
@[simp] theorem State.answer_tones (k : Link) (r : Result) (fs : List Byte) : (s.answer k r fs).tones = s.tones := by cases k <;> rfl
@[simp] theorem State.answer_toneCursor (k : Link) (r : Result) (fs : List Byte) : (s.answer k r fs).toneCursor = s.toneCursor := by cases k <;> rfl
@[simp] theorem State.answer_toneStaging (k : Link) (r : Result) (fs : List Byte) : (s.answer k r fs).toneStaging = s.toneStaging := by cases k <;> rfl
@[simp] theorem State.answer_programs (k : Link) (r : Result) (fs : List Byte) : (s.answer k r fs).programs = s.programs := by cases k <;> rfl
@[simp] theorem State.answer_events (k : Link) (r : Result) (fs : List Byte) : (s.answer k r fs).events = s.events := by cases k <;> rfl
@[simp] theorem State.answer_sequence (k : Link) (r : Result) (fs : List Byte) : (s.answer k r fs).sequence = s.sequence := by cases k <;> rfl
@[simp] theorem State.answer_pending (k : Link) (r : Result) (fs : List Byte) : (s.answer k r fs).pending = s.pending := by cases k <;> rfl

@[simp] theorem State.refuse_resetLow (k : Link) (r : Result) : (s.refuse k r).resetLow = s.resetLow := by cases k <;> rfl
@[simp] theorem State.refuse_timebase (k : Link) (r : Result) : (s.refuse k r).timebase = s.timebase := by cases k <;> rfl
@[simp] theorem State.refuse_g (k : Link) (r : Result) : (s.refuse k r).g = s.g := by cases k <;> rfl
@[simp] theorem State.refuse_frame (k : Link) (r : Result) : (s.refuse k r).frame = s.frame := by cases k <;> rfl
@[simp] theorem State.refuse_htx (k : Link) (r : Result) : (s.refuse k r).htx = s.htx := by cases k <;> rfl
@[simp] theorem State.refuse_lines (k : Link) (r : Result) : (s.refuse k r).lines = s.lines := by cases k <;> rfl
@[simp] theorem State.refuse_store (k : Link) (r : Result) : (s.refuse k r).store = s.store := by cases k <;> rfl
@[simp] theorem State.refuse_fillPattern (k : Link) (r : Result) : (s.refuse k r).fillPattern = s.fillPattern := by cases k <;> rfl
@[simp] theorem State.refuse_deposit (k : Link) (r : Result) : (s.refuse k r).deposit = s.deposit := by cases k <;> rfl
@[simp] theorem State.refuse_job (k : Link) (r : Result) : (s.refuse k r).job = s.job := by cases k <;> rfl
@[simp] theorem State.refuse_tones (k : Link) (r : Result) : (s.refuse k r).tones = s.tones := by cases k <;> rfl
@[simp] theorem State.refuse_toneCursor (k : Link) (r : Result) : (s.refuse k r).toneCursor = s.toneCursor := by cases k <;> rfl
@[simp] theorem State.refuse_toneStaging (k : Link) (r : Result) : (s.refuse k r).toneStaging = s.toneStaging := by cases k <;> rfl
@[simp] theorem State.refuse_programs (k : Link) (r : Result) : (s.refuse k r).programs = s.programs := by cases k <;> rfl
@[simp] theorem State.refuse_events (k : Link) (r : Result) : (s.refuse k r).events = s.events := by cases k <;> rfl
@[simp] theorem State.refuse_sequence (k : Link) (r : Result) : (s.refuse k r).sequence = s.sequence := by cases k <;> rfl
@[simp] theorem State.refuse_pending (k : Link) (r : Result) : (s.refuse k r).pending = s.pending := by cases k <;> rfl

@[simp] theorem State.truncated_resetLow (k : Link) : (s.truncated k).resetLow = s.resetLow := by cases k <;> rfl
@[simp] theorem State.truncated_timebase (k : Link) : (s.truncated k).timebase = s.timebase := by cases k <;> rfl
@[simp] theorem State.truncated_g (k : Link) : (s.truncated k).g = s.g := by cases k <;> rfl
@[simp] theorem State.truncated_frame (k : Link) : (s.truncated k).frame = s.frame := by cases k <;> rfl
@[simp] theorem State.truncated_htx (k : Link) : (s.truncated k).htx = s.htx := by cases k <;> rfl
@[simp] theorem State.truncated_lines (k : Link) : (s.truncated k).lines = s.lines := by cases k <;> rfl
@[simp] theorem State.truncated_store (k : Link) : (s.truncated k).store = s.store := by cases k <;> rfl
@[simp] theorem State.truncated_fillPattern (k : Link) : (s.truncated k).fillPattern = s.fillPattern := by cases k <;> rfl
@[simp] theorem State.truncated_deposit (k : Link) : (s.truncated k).deposit = s.deposit := by cases k <;> rfl
@[simp] theorem State.truncated_job (k : Link) : (s.truncated k).job = s.job := by cases k <;> rfl
@[simp] theorem State.truncated_tones (k : Link) : (s.truncated k).tones = s.tones := by cases k <;> rfl
@[simp] theorem State.truncated_toneCursor (k : Link) : (s.truncated k).toneCursor = s.toneCursor := by cases k <;> rfl
@[simp] theorem State.truncated_toneStaging (k : Link) : (s.truncated k).toneStaging = s.toneStaging := by cases k <;> rfl
@[simp] theorem State.truncated_programs (k : Link) : (s.truncated k).programs = s.programs := by cases k <;> rfl
@[simp] theorem State.truncated_events (k : Link) : (s.truncated k).events = s.events := by cases k <;> rfl
@[simp] theorem State.truncated_sequence (k : Link) : (s.truncated k).sequence = s.sequence := by cases k <;> rfl
@[simp] theorem State.truncated_pending (k : Link) : (s.truncated k).pending = s.pending := by cases k <;> rfl

@[simp] theorem State.breakDeposit_resetLow : (s.breakDeposit).resetLow = s.resetLow := rfl
@[simp] theorem State.breakDeposit_timebase : (s.breakDeposit).timebase = s.timebase := rfl
@[simp] theorem State.breakDeposit_g : (s.breakDeposit).g = s.g := rfl
@[simp] theorem State.breakDeposit_frame : (s.breakDeposit).frame = s.frame := rfl
@[simp] theorem State.breakDeposit_htx : (s.breakDeposit).htx = s.htx := rfl
@[simp] theorem State.breakDeposit_lines : (s.breakDeposit).lines = s.lines := rfl
@[simp] theorem State.breakDeposit_store : (s.breakDeposit).store = s.store := rfl
@[simp] theorem State.breakDeposit_fillPattern : (s.breakDeposit).fillPattern = s.fillPattern := rfl
@[simp] theorem State.breakDeposit_job : (s.breakDeposit).job = s.job := rfl
@[simp] theorem State.breakDeposit_tones : (s.breakDeposit).tones = s.tones := rfl
@[simp] theorem State.breakDeposit_toneCursor : (s.breakDeposit).toneCursor = s.toneCursor := rfl
@[simp] theorem State.breakDeposit_toneStaging : (s.breakDeposit).toneStaging = s.toneStaging := rfl
@[simp] theorem State.breakDeposit_programs : (s.breakDeposit).programs = s.programs := rfl
@[simp] theorem State.breakDeposit_events : (s.breakDeposit).events = s.events := rfl
@[simp] theorem State.breakDeposit_cLink : (s.breakDeposit).cLink = s.cLink := rfl
@[simp] theorem State.breakDeposit_mLink : (s.breakDeposit).mLink = s.mLink := rfl
@[simp] theorem State.breakDeposit_sequence : (s.breakDeposit).sequence = s.sequence := rfl
@[simp] theorem State.breakDeposit_pending : (s.breakDeposit).pending = s.pending := rfl

@[simp] theorem State.clearFlags_resetLow (k : Link) : (s.clearFlags k).resetLow = s.resetLow := by cases k <;> rfl
@[simp] theorem State.clearFlags_timebase (k : Link) : (s.clearFlags k).timebase = s.timebase := by cases k <;> rfl
@[simp] theorem State.clearFlags_g (k : Link) : (s.clearFlags k).g = s.g := by cases k <;> rfl
@[simp] theorem State.clearFlags_frame (k : Link) : (s.clearFlags k).frame = s.frame := by cases k <;> rfl
@[simp] theorem State.clearFlags_htx (k : Link) : (s.clearFlags k).htx = s.htx := by cases k <;> rfl
@[simp] theorem State.clearFlags_lines (k : Link) : (s.clearFlags k).lines = s.lines := by cases k <;> rfl
@[simp] theorem State.clearFlags_store (k : Link) : (s.clearFlags k).store = s.store := by cases k <;> rfl
@[simp] theorem State.clearFlags_fillPattern (k : Link) : (s.clearFlags k).fillPattern = s.fillPattern := by cases k <;> rfl
@[simp] theorem State.clearFlags_deposit (k : Link) : (s.clearFlags k).deposit = s.deposit := by cases k <;> rfl
@[simp] theorem State.clearFlags_job (k : Link) : (s.clearFlags k).job = s.job := by cases k <;> rfl
@[simp] theorem State.clearFlags_tones (k : Link) : (s.clearFlags k).tones = s.tones := by cases k <;> rfl
@[simp] theorem State.clearFlags_toneCursor (k : Link) : (s.clearFlags k).toneCursor = s.toneCursor := by cases k <;> rfl
@[simp] theorem State.clearFlags_toneStaging (k : Link) : (s.clearFlags k).toneStaging = s.toneStaging := by cases k <;> rfl
@[simp] theorem State.clearFlags_programs (k : Link) : (s.clearFlags k).programs = s.programs := by cases k <;> rfl
@[simp] theorem State.clearFlags_events (k : Link) : (s.clearFlags k).events = s.events := by cases k <;> rfl
@[simp] theorem State.clearFlags_pending (k : Link) : (s.clearFlags k).pending = s.pending := by cases k <;> rfl

@[simp] theorem State.arrive_resetLow (r : EventRecord) : (s.arrive r).resetLow = s.resetLow := rfl
@[simp] theorem State.arrive_timebase (r : EventRecord) : (s.arrive r).timebase = s.timebase := rfl
@[simp] theorem State.arrive_g (r : EventRecord) : (s.arrive r).g = s.g := rfl
@[simp] theorem State.arrive_frame (r : EventRecord) : (s.arrive r).frame = s.frame := rfl
@[simp] theorem State.arrive_htx (r : EventRecord) : (s.arrive r).htx = s.htx := rfl
@[simp] theorem State.arrive_lines (r : EventRecord) : (s.arrive r).lines = s.lines := rfl
@[simp] theorem State.arrive_store (r : EventRecord) : (s.arrive r).store = s.store := rfl
@[simp] theorem State.arrive_fillPattern (r : EventRecord) : (s.arrive r).fillPattern = s.fillPattern := rfl
@[simp] theorem State.arrive_deposit (r : EventRecord) : (s.arrive r).deposit = s.deposit := rfl
@[simp] theorem State.arrive_job (r : EventRecord) : (s.arrive r).job = s.job := rfl
@[simp] theorem State.arrive_tones (r : EventRecord) : (s.arrive r).tones = s.tones := rfl
@[simp] theorem State.arrive_toneCursor (r : EventRecord) : (s.arrive r).toneCursor = s.toneCursor := rfl
@[simp] theorem State.arrive_toneStaging (r : EventRecord) : (s.arrive r).toneStaging = s.toneStaging := rfl
@[simp] theorem State.arrive_programs (r : EventRecord) : (s.arrive r).programs = s.programs := rfl
@[simp] theorem State.arrive_events (r : EventRecord) : (s.arrive r).events = enqueue s.events r := rfl
@[simp] theorem State.arrive_mLink (r : EventRecord) : (s.arrive r).mLink = s.mLink := rfl
@[simp] theorem State.arrive_sequence (r : EventRecord) : (s.arrive r).sequence = s.sequence := rfl
@[simp] theorem State.arrive_pending (r : EventRecord) : (s.arrive r).pending = s.pending := rfl

@[simp] theorem State.queue_resetLow (l : Fin 4) (stamp : Word32) (es : List Event) : (s.queue l stamp es).resetLow = s.resetLow := by
  induction es generalizing s with
  | nil => rfl
  | cons e es ih => rw [State.queue, ih, State.arrive_resetLow]
@[simp] theorem State.queue_timebase (l : Fin 4) (stamp : Word32) (es : List Event) : (s.queue l stamp es).timebase = s.timebase := by
  induction es generalizing s with
  | nil => rfl
  | cons e es ih => rw [State.queue, ih, State.arrive_timebase]
@[simp] theorem State.queue_g (l : Fin 4) (stamp : Word32) (es : List Event) : (s.queue l stamp es).g = s.g := by
  induction es generalizing s with
  | nil => rfl
  | cons e es ih => rw [State.queue, ih, State.arrive_g]
@[simp] theorem State.queue_frame (l : Fin 4) (stamp : Word32) (es : List Event) : (s.queue l stamp es).frame = s.frame := by
  induction es generalizing s with
  | nil => rfl
  | cons e es ih => rw [State.queue, ih, State.arrive_frame]
@[simp] theorem State.queue_htx (l : Fin 4) (stamp : Word32) (es : List Event) : (s.queue l stamp es).htx = s.htx := by
  induction es generalizing s with
  | nil => rfl
  | cons e es ih => rw [State.queue, ih, State.arrive_htx]
@[simp] theorem State.queue_lines (l : Fin 4) (stamp : Word32) (es : List Event) : (s.queue l stamp es).lines = s.lines := by
  induction es generalizing s with
  | nil => rfl
  | cons e es ih => rw [State.queue, ih, State.arrive_lines]
@[simp] theorem State.queue_store (l : Fin 4) (stamp : Word32) (es : List Event) : (s.queue l stamp es).store = s.store := by
  induction es generalizing s with
  | nil => rfl
  | cons e es ih => rw [State.queue, ih, State.arrive_store]
@[simp] theorem State.queue_fillPattern (l : Fin 4) (stamp : Word32) (es : List Event) : (s.queue l stamp es).fillPattern = s.fillPattern := by
  induction es generalizing s with
  | nil => rfl
  | cons e es ih => rw [State.queue, ih, State.arrive_fillPattern]
@[simp] theorem State.queue_deposit (l : Fin 4) (stamp : Word32) (es : List Event) : (s.queue l stamp es).deposit = s.deposit := by
  induction es generalizing s with
  | nil => rfl
  | cons e es ih => rw [State.queue, ih, State.arrive_deposit]
@[simp] theorem State.queue_job (l : Fin 4) (stamp : Word32) (es : List Event) : (s.queue l stamp es).job = s.job := by
  induction es generalizing s with
  | nil => rfl
  | cons e es ih => rw [State.queue, ih, State.arrive_job]
@[simp] theorem State.queue_tones (l : Fin 4) (stamp : Word32) (es : List Event) : (s.queue l stamp es).tones = s.tones := by
  induction es generalizing s with
  | nil => rfl
  | cons e es ih => rw [State.queue, ih, State.arrive_tones]
@[simp] theorem State.queue_toneCursor (l : Fin 4) (stamp : Word32) (es : List Event) : (s.queue l stamp es).toneCursor = s.toneCursor := by
  induction es generalizing s with
  | nil => rfl
  | cons e es ih => rw [State.queue, ih, State.arrive_toneCursor]
@[simp] theorem State.queue_toneStaging (l : Fin 4) (stamp : Word32) (es : List Event) : (s.queue l stamp es).toneStaging = s.toneStaging := by
  induction es generalizing s with
  | nil => rfl
  | cons e es ih => rw [State.queue, ih, State.arrive_toneStaging]
@[simp] theorem State.queue_programs (l : Fin 4) (stamp : Word32) (es : List Event) : (s.queue l stamp es).programs = s.programs := by
  induction es generalizing s with
  | nil => rfl
  | cons e es ih => rw [State.queue, ih, State.arrive_programs]
@[simp] theorem State.queue_mLink (l : Fin 4) (stamp : Word32) (es : List Event) : (s.queue l stamp es).mLink = s.mLink := by
  induction es generalizing s with
  | nil => rfl
  | cons e es ih => rw [State.queue, ih, State.arrive_mLink]
@[simp] theorem State.queue_sequence (l : Fin 4) (stamp : Word32) (es : List Event) : (s.queue l stamp es).sequence = s.sequence := by
  induction es generalizing s with
  | nil => rfl
  | cons e es ih => rw [State.queue, ih, State.arrive_sequence]
@[simp] theorem State.queue_pending (l : Fin 4) (stamp : Word32) (es : List Event) : (s.queue l stamp es).pending = s.pending := by
  induction es generalizing s with
  | nil => rfl
  | cons e es ih => rw [State.queue, ih, State.arrive_pending]

@[simp] theorem State.commitLine_resetLow (l : Fin 4) (stamp : Word32) (r : LineStep) : (s.commitLine l stamp r).resetLow = s.resetLow := by
  rw [State.commitLine, State.queue_resetLow, State.setLine_resetLow]
@[simp] theorem State.commitLine_timebase (l : Fin 4) (stamp : Word32) (r : LineStep) : (s.commitLine l stamp r).timebase = s.timebase := by
  rw [State.commitLine, State.queue_timebase, State.setLine_timebase]
@[simp] theorem State.commitLine_g (l : Fin 4) (stamp : Word32) (r : LineStep) : (s.commitLine l stamp r).g = s.g := by
  rw [State.commitLine, State.queue_g, State.setLine_g]
@[simp] theorem State.commitLine_frame (l : Fin 4) (stamp : Word32) (r : LineStep) : (s.commitLine l stamp r).frame = s.frame := by
  rw [State.commitLine, State.queue_frame, State.setLine_frame]
@[simp] theorem State.commitLine_htx (l : Fin 4) (stamp : Word32) (r : LineStep) : (s.commitLine l stamp r).htx = s.htx := by
  rw [State.commitLine, State.queue_htx, State.setLine_htx]
@[simp] theorem State.commitLine_lines (l : Fin 4) (stamp : Word32) (r : LineStep) : (s.commitLine l stamp r).lines = s.lines.set l r.1 := by
  rw [State.commitLine, State.queue_lines, State.setLine_lines]
@[simp] theorem State.commitLine_store (l : Fin 4) (stamp : Word32) (r : LineStep) : (s.commitLine l stamp r).store = s.store := by
  rw [State.commitLine, State.queue_store, State.setLine_store]
@[simp] theorem State.commitLine_fillPattern (l : Fin 4) (stamp : Word32) (r : LineStep) : (s.commitLine l stamp r).fillPattern = s.fillPattern := by
  rw [State.commitLine, State.queue_fillPattern, State.setLine_fillPattern]
@[simp] theorem State.commitLine_deposit (l : Fin 4) (stamp : Word32) (r : LineStep) : (s.commitLine l stamp r).deposit = s.deposit := by
  rw [State.commitLine, State.queue_deposit, State.setLine_deposit]
@[simp] theorem State.commitLine_job (l : Fin 4) (stamp : Word32) (r : LineStep) : (s.commitLine l stamp r).job = s.job := by
  rw [State.commitLine, State.queue_job, State.setLine_job]
@[simp] theorem State.commitLine_tones (l : Fin 4) (stamp : Word32) (r : LineStep) : (s.commitLine l stamp r).tones = s.tones := by
  rw [State.commitLine, State.queue_tones, State.setLine_tones]
@[simp] theorem State.commitLine_toneCursor (l : Fin 4) (stamp : Word32) (r : LineStep) : (s.commitLine l stamp r).toneCursor = s.toneCursor := by
  rw [State.commitLine, State.queue_toneCursor, State.setLine_toneCursor]
@[simp] theorem State.commitLine_toneStaging (l : Fin 4) (stamp : Word32) (r : LineStep) : (s.commitLine l stamp r).toneStaging = s.toneStaging := by
  rw [State.commitLine, State.queue_toneStaging, State.setLine_toneStaging]
@[simp] theorem State.commitLine_programs (l : Fin 4) (stamp : Word32) (r : LineStep) : (s.commitLine l stamp r).programs = s.programs := by
  rw [State.commitLine, State.queue_programs, State.setLine_programs]
@[simp] theorem State.commitLine_mLink (l : Fin 4) (stamp : Word32) (r : LineStep) : (s.commitLine l stamp r).mLink = s.mLink := by
  rw [State.commitLine, State.queue_mLink, State.setLine_mLink]
@[simp] theorem State.commitLine_sequence (l : Fin 4) (stamp : Word32) (r : LineStep) : (s.commitLine l stamp r).sequence = s.sequence := by
  rw [State.commitLine, State.queue_sequence, State.setLine_sequence]
@[simp] theorem State.commitLine_pending (l : Fin 4) (stamp : Word32) (r : LineStep) : (s.commitLine l stamp r).pending = s.pending := by
  rw [State.commitLine, State.queue_pending, State.setLine_pending]

@[simp] theorem State.beginWrites_resetLow (w : Write) (ls : List (Fin 4)) : (s.beginWrites w ls).resetLow = s.resetLow := rfl
@[simp] theorem State.beginWrites_timebase (w : Write) (ls : List (Fin 4)) : (s.beginWrites w ls).timebase = s.timebase := rfl
@[simp] theorem State.beginWrites_g (w : Write) (ls : List (Fin 4)) : (s.beginWrites w ls).g = s.g := rfl
@[simp] theorem State.beginWrites_frame (w : Write) (ls : List (Fin 4)) : (s.beginWrites w ls).frame = s.frame := rfl
@[simp] theorem State.beginWrites_htx (w : Write) (ls : List (Fin 4)) : (s.beginWrites w ls).htx = s.htx := rfl
@[simp] theorem State.beginWrites_lines (w : Write) (ls : List (Fin 4)) : (s.beginWrites w ls).lines = s.lines := rfl
@[simp] theorem State.beginWrites_store (w : Write) (ls : List (Fin 4)) : (s.beginWrites w ls).store = s.store := rfl
@[simp] theorem State.beginWrites_fillPattern (w : Write) (ls : List (Fin 4)) : (s.beginWrites w ls).fillPattern = s.fillPattern := rfl
@[simp] theorem State.beginWrites_deposit (w : Write) (ls : List (Fin 4)) : (s.beginWrites w ls).deposit = s.deposit := rfl
@[simp] theorem State.beginWrites_tones (w : Write) (ls : List (Fin 4)) : (s.beginWrites w ls).tones = s.tones := rfl
@[simp] theorem State.beginWrites_toneCursor (w : Write) (ls : List (Fin 4)) : (s.beginWrites w ls).toneCursor = s.toneCursor := rfl
@[simp] theorem State.beginWrites_toneStaging (w : Write) (ls : List (Fin 4)) : (s.beginWrites w ls).toneStaging = s.toneStaging := rfl
@[simp] theorem State.beginWrites_programs (w : Write) (ls : List (Fin 4)) : (s.beginWrites w ls).programs = s.programs := rfl
@[simp] theorem State.beginWrites_events (w : Write) (ls : List (Fin 4)) : (s.beginWrites w ls).events = s.events := rfl
@[simp] theorem State.beginWrites_cLink (w : Write) (ls : List (Fin 4)) : (s.beginWrites w ls).cLink = s.cLink := rfl
@[simp] theorem State.beginWrites_mLink (w : Write) (ls : List (Fin 4)) : (s.beginWrites w ls).mLink = s.mLink := rfl
@[simp] theorem State.beginWrites_sequence (w : Write) (ls : List (Fin 4)) : (s.beginWrites w ls).sequence = s.sequence := rfl
@[simp] theorem State.beginWrites_pending (w : Write) (ls : List (Fin 4)) : (s.beginWrites w ls).pending = s.pending := rfl
@[simp] theorem State.beginWrites_job (w : Write) (ls : List (Fin 4)) : (s.beginWrites w ls).job = some ⟨w, ls, []⟩ := rfl

@[simp] theorem State.endWrites_resetLow (w : Write) (bs : List Byte) : (s.endWrites w bs).resetLow = s.resetLow := rfl
@[simp] theorem State.endWrites_timebase (w : Write) (bs : List Byte) : (s.endWrites w bs).timebase = s.timebase := rfl
@[simp] theorem State.endWrites_g (w : Write) (bs : List Byte) : (s.endWrites w bs).g = s.g := rfl
@[simp] theorem State.endWrites_frame (w : Write) (bs : List Byte) : (s.endWrites w bs).frame = s.frame := rfl
@[simp] theorem State.endWrites_htx (w : Write) (bs : List Byte) : (s.endWrites w bs).htx = s.htx := rfl
@[simp] theorem State.endWrites_lines (w : Write) (bs : List Byte) : (s.endWrites w bs).lines = s.lines := rfl
@[simp] theorem State.endWrites_store (w : Write) (bs : List Byte) : (s.endWrites w bs).store = s.store := rfl
@[simp] theorem State.endWrites_fillPattern (w : Write) (bs : List Byte) : (s.endWrites w bs).fillPattern = s.fillPattern := rfl
@[simp] theorem State.endWrites_tones (w : Write) (bs : List Byte) : (s.endWrites w bs).tones = s.tones := rfl
@[simp] theorem State.endWrites_toneCursor (w : Write) (bs : List Byte) : (s.endWrites w bs).toneCursor = s.toneCursor := rfl
@[simp] theorem State.endWrites_toneStaging (w : Write) (bs : List Byte) : (s.endWrites w bs).toneStaging = s.toneStaging := rfl
@[simp] theorem State.endWrites_programs (w : Write) (bs : List Byte) : (s.endWrites w bs).programs = s.programs := rfl
@[simp] theorem State.endWrites_events (w : Write) (bs : List Byte) : (s.endWrites w bs).events = s.events := rfl
@[simp] theorem State.endWrites_cLink (w : Write) (bs : List Byte) : (s.endWrites w bs).cLink = s.cLink := rfl
@[simp] theorem State.endWrites_sequence (w : Write) (bs : List Byte) : (s.endWrites w bs).sequence = s.sequence := rfl
@[simp] theorem State.endWrites_pending (w : Write) (bs : List Byte) : (s.endWrites w bs).pending = s.pending := rfl
@[simp] theorem State.endWrites_job (w : Write) (bs : List Byte) : (s.endWrites w bs).job = none := rfl
@[simp] theorem State.endWrites_mLink (w : Write) (bs : List Byte) :
    (s.endWrites w bs).mLink = { s.mLink with response := 0 :: bs } := rfl
theorem State.endWrites_deposit (w : Write) (bs : List Byte) :
    (s.endWrites w bs).deposit = match w.kind with | .media => none | .fill => s.deposit := rfl

@[simp] theorem State.writeLine_resetLow (w : Write) (l : Fin 4) : (s.writeLine w l).resetLow = s.resetLow := rfl
@[simp] theorem State.writeLine_timebase (w : Write) (l : Fin 4) : (s.writeLine w l).timebase = s.timebase := rfl
@[simp] theorem State.writeLine_g (w : Write) (l : Fin 4) : (s.writeLine w l).g = s.g := rfl
@[simp] theorem State.writeLine_frame (w : Write) (l : Fin 4) : (s.writeLine w l).frame = s.frame := rfl
@[simp] theorem State.writeLine_htx (w : Write) (l : Fin 4) : (s.writeLine w l).htx = s.htx := rfl
@[simp] theorem State.writeLine_fillPattern (w : Write) (l : Fin 4) : (s.writeLine w l).fillPattern = s.fillPattern := rfl
@[simp] theorem State.writeLine_deposit (w : Write) (l : Fin 4) : (s.writeLine w l).deposit = s.deposit := rfl
@[simp] theorem State.writeLine_tones (w : Write) (l : Fin 4) : (s.writeLine w l).tones = s.tones := rfl
@[simp] theorem State.writeLine_toneCursor (w : Write) (l : Fin 4) : (s.writeLine w l).toneCursor = s.toneCursor := rfl
@[simp] theorem State.writeLine_toneStaging (w : Write) (l : Fin 4) : (s.writeLine w l).toneStaging = s.toneStaging := rfl
@[simp] theorem State.writeLine_programs (w : Write) (l : Fin 4) : (s.writeLine w l).programs = s.programs := rfl
@[simp] theorem State.writeLine_events (w : Write) (l : Fin 4) : (s.writeLine w l).events = s.events := rfl
@[simp] theorem State.writeLine_cLink (w : Write) (l : Fin 4) : (s.writeLine w l).cLink = s.cLink := rfl
@[simp] theorem State.writeLine_mLink (w : Write) (l : Fin 4) : (s.writeLine w l).mLink = s.mLink := rfl
@[simp] theorem State.writeLine_sequence (w : Write) (l : Fin 4) : (s.writeLine w l).sequence = s.sequence := rfl
@[simp] theorem State.writeLine_pending (w : Write) (l : Fin 4) : (s.writeLine w l).pending = s.pending := rfl
@[simp] theorem State.writeLine_job (w : Write) (l : Fin 4) : (s.writeLine w l).job = s.job := rfl

@[simp] theorem State.writeLines_resetLow (w : Write) (ls : List (Fin 4)) : (s.writeLines w ls).resetLow = s.resetLow := by
  induction ls generalizing s with
  | nil => rfl
  | cons l ls ih => exact ih (s.writeLine w l)
@[simp] theorem State.writeLines_timebase (w : Write) (ls : List (Fin 4)) : (s.writeLines w ls).timebase = s.timebase := by
  induction ls generalizing s with
  | nil => rfl
  | cons l ls ih => exact ih (s.writeLine w l)
@[simp] theorem State.writeLines_g (w : Write) (ls : List (Fin 4)) : (s.writeLines w ls).g = s.g := by
  induction ls generalizing s with
  | nil => rfl
  | cons l ls ih => exact ih (s.writeLine w l)
@[simp] theorem State.writeLines_frame (w : Write) (ls : List (Fin 4)) : (s.writeLines w ls).frame = s.frame := by
  induction ls generalizing s with
  | nil => rfl
  | cons l ls ih => exact ih (s.writeLine w l)
@[simp] theorem State.writeLines_htx (w : Write) (ls : List (Fin 4)) : (s.writeLines w ls).htx = s.htx := by
  induction ls generalizing s with
  | nil => rfl
  | cons l ls ih => exact ih (s.writeLine w l)
@[simp] theorem State.writeLines_fillPattern (w : Write) (ls : List (Fin 4)) : (s.writeLines w ls).fillPattern = s.fillPattern := by
  induction ls generalizing s with
  | nil => rfl
  | cons l ls ih => exact ih (s.writeLine w l)
@[simp] theorem State.writeLines_deposit (w : Write) (ls : List (Fin 4)) : (s.writeLines w ls).deposit = s.deposit := by
  induction ls generalizing s with
  | nil => rfl
  | cons l ls ih => exact ih (s.writeLine w l)
@[simp] theorem State.writeLines_tones (w : Write) (ls : List (Fin 4)) : (s.writeLines w ls).tones = s.tones := by
  induction ls generalizing s with
  | nil => rfl
  | cons l ls ih => exact ih (s.writeLine w l)
@[simp] theorem State.writeLines_toneCursor (w : Write) (ls : List (Fin 4)) : (s.writeLines w ls).toneCursor = s.toneCursor := by
  induction ls generalizing s with
  | nil => rfl
  | cons l ls ih => exact ih (s.writeLine w l)
@[simp] theorem State.writeLines_toneStaging (w : Write) (ls : List (Fin 4)) : (s.writeLines w ls).toneStaging = s.toneStaging := by
  induction ls generalizing s with
  | nil => rfl
  | cons l ls ih => exact ih (s.writeLine w l)
@[simp] theorem State.writeLines_programs (w : Write) (ls : List (Fin 4)) : (s.writeLines w ls).programs = s.programs := by
  induction ls generalizing s with
  | nil => rfl
  | cons l ls ih => exact ih (s.writeLine w l)
@[simp] theorem State.writeLines_events (w : Write) (ls : List (Fin 4)) : (s.writeLines w ls).events = s.events := by
  induction ls generalizing s with
  | nil => rfl
  | cons l ls ih => exact ih (s.writeLine w l)
@[simp] theorem State.writeLines_cLink (w : Write) (ls : List (Fin 4)) : (s.writeLines w ls).cLink = s.cLink := by
  induction ls generalizing s with
  | nil => rfl
  | cons l ls ih => exact ih (s.writeLine w l)
@[simp] theorem State.writeLines_mLink (w : Write) (ls : List (Fin 4)) : (s.writeLines w ls).mLink = s.mLink := by
  induction ls generalizing s with
  | nil => rfl
  | cons l ls ih => exact ih (s.writeLine w l)
@[simp] theorem State.writeLines_sequence (w : Write) (ls : List (Fin 4)) : (s.writeLines w ls).sequence = s.sequence := by
  induction ls generalizing s with
  | nil => rfl
  | cons l ls ih => exact ih (s.writeLine w l)
@[simp] theorem State.writeLines_pending (w : Write) (ls : List (Fin 4)) : (s.writeLines w ls).pending = s.pending := by
  induction ls generalizing s with
  | nil => rfl
  | cons l ls ih => exact ih (s.writeLine w l)
@[simp] theorem State.writeLines_job (w : Write) (ls : List (Fin 4)) : (s.writeLines w ls).job = s.job := by
  induction ls generalizing s with
  | nil => rfl
  | cons l ls ih => exact ih (s.writeLine w l)

@[simp] theorem State.advance_resetLow (n : Nat) : (s.advance n).resetLow = s.resetLow := by
  unfold State.advance
  split
  · rfl
  · dsimp only
    split <;> simp
@[simp] theorem State.advance_timebase (n : Nat) : (s.advance n).timebase = s.timebase := by
  unfold State.advance
  split
  · rfl
  · dsimp only
    split <;> simp
@[simp] theorem State.advance_g (n : Nat) : (s.advance n).g = s.g := by
  unfold State.advance
  split
  · rfl
  · dsimp only
    split <;> simp
@[simp] theorem State.advance_frame (n : Nat) : (s.advance n).frame = s.frame := by
  unfold State.advance
  split
  · rfl
  · dsimp only
    split <;> simp
@[simp] theorem State.advance_htx (n : Nat) : (s.advance n).htx = s.htx := by
  unfold State.advance
  split
  · rfl
  · dsimp only
    split <;> simp
@[simp] theorem State.advance_fillPattern (n : Nat) : (s.advance n).fillPattern = s.fillPattern := by
  unfold State.advance
  split
  · rfl
  · dsimp only
    split <;> simp
@[simp] theorem State.advance_tones (n : Nat) : (s.advance n).tones = s.tones := by
  unfold State.advance
  split
  · rfl
  · dsimp only
    split <;> simp
@[simp] theorem State.advance_toneCursor (n : Nat) : (s.advance n).toneCursor = s.toneCursor := by
  unfold State.advance
  split
  · rfl
  · dsimp only
    split <;> simp
@[simp] theorem State.advance_toneStaging (n : Nat) : (s.advance n).toneStaging = s.toneStaging := by
  unfold State.advance
  split
  · rfl
  · dsimp only
    split <;> simp
@[simp] theorem State.advance_programs (n : Nat) : (s.advance n).programs = s.programs := by
  unfold State.advance
  split
  · rfl
  · dsimp only
    split <;> simp
@[simp] theorem State.advance_events (n : Nat) : (s.advance n).events = s.events := by
  unfold State.advance
  split
  · rfl
  · dsimp only
    split <;> simp
@[simp] theorem State.advance_cLink (n : Nat) : (s.advance n).cLink = s.cLink := by
  unfold State.advance
  split
  · rfl
  · dsimp only
    split <;> simp
@[simp] theorem State.advance_sequence (n : Nat) : (s.advance n).sequence = s.sequence := by
  unfold State.advance
  split
  · rfl
  · dsimp only
    split <;> simp
@[simp] theorem State.advance_pending (n : Nat) : (s.advance n).pending = s.pending := by
  unfold State.advance
  split
  · rfl
  · dsimp only
    split <;> simp

@[simp] theorem State.finishWrites_resetLow : s.finishWrites.resetLow = s.resetLow := by
  unfold State.finishWrites
  split <;> simp
@[simp] theorem State.finishWrites_timebase : s.finishWrites.timebase = s.timebase := by
  unfold State.finishWrites
  split <;> simp
@[simp] theorem State.finishWrites_g : s.finishWrites.g = s.g := by
  unfold State.finishWrites
  split <;> simp
@[simp] theorem State.finishWrites_frame : s.finishWrites.frame = s.frame := by
  unfold State.finishWrites
  split <;> simp
@[simp] theorem State.finishWrites_htx : s.finishWrites.htx = s.htx := by
  unfold State.finishWrites
  split <;> simp
@[simp] theorem State.finishWrites_fillPattern : s.finishWrites.fillPattern = s.fillPattern := by
  unfold State.finishWrites
  split <;> simp
@[simp] theorem State.finishWrites_tones : s.finishWrites.tones = s.tones := by
  unfold State.finishWrites
  split <;> simp
@[simp] theorem State.finishWrites_toneCursor : s.finishWrites.toneCursor = s.toneCursor := by
  unfold State.finishWrites
  split <;> simp
@[simp] theorem State.finishWrites_toneStaging : s.finishWrites.toneStaging = s.toneStaging := by
  unfold State.finishWrites
  split <;> simp
@[simp] theorem State.finishWrites_programs : s.finishWrites.programs = s.programs := by
  unfold State.finishWrites
  split <;> simp
@[simp] theorem State.finishWrites_events : s.finishWrites.events = s.events := by
  unfold State.finishWrites
  split <;> simp
@[simp] theorem State.finishWrites_cLink : s.finishWrites.cLink = s.cLink := by
  unfold State.finishWrites
  split <;> simp
@[simp] theorem State.finishWrites_sequence : s.finishWrites.sequence = s.sequence := by
  unfold State.finishWrites
  split <;> simp
@[simp] theorem State.finishWrites_pending : s.finishWrites.pending = s.pending := by
  unfold State.finishWrites
  split <;> simp

/-! ### The lines -/

@[simp] theorem State.line_setLine_same (l : Fin 4) (L : Line) : (s.setLine l L).line l = L := by
  simp [State.line]

theorem State.line_setLine (l k : Fin 4) (L : Line) : (s.setLine l L).line k = if k = l then L else s.line k := by
  simp [State.line, Four.get_set]

theorem State.line_setLine_ne {l k : Fin 4} (L : Line) (h : k ≠ l) : (s.setLine l L).line k = s.line k := by
  simp [State.line, Four.get_set_ne _ _ h]

@[simp] theorem State.line_setStore (st : Store) (k : Fin 4) : (s.setStore st).line k = s.line k := rfl
@[simp] theorem State.line_setDeposit (d : Option Deposit) (k : Fin 4) : (s.setDeposit d).line k = s.line k := rfl
@[simp] theorem State.line_setSequence (k : Fin 4) : s.setSequence.line k = s.line k := rfl
@[simp] theorem State.line_withPending (q : List Instr) (k : Fin 4) : (s.withPending q).line k = s.line k := rfl
@[simp] theorem State.line_boundary (k : Fin 4) : s.boundary.line k = (s.line k).boundary := by
  simp [State.line]
@[simp] theorem State.line_setLink (j : Link) (x : LinkState) (k : Fin 4) : (s.setLink j x).line k = s.line k := by
  simp [State.line]
@[simp] theorem State.line_answer (j : Link) (r : Result) (fs : List Byte) (k : Fin 4) : (s.answer j r fs).line k = s.line k := by
  simp [State.line]
@[simp] theorem State.line_refuse (j : Link) (r : Result) (k : Fin 4) : (s.refuse j r).line k = s.line k := by
  simp [State.line]
@[simp] theorem State.line_truncated (j : Link) (k : Fin 4) : (s.truncated j).line k = s.line k := by
  simp [State.line]
@[simp] theorem State.line_queue (l : Fin 4) (stamp : Word32) (es : List Event) (k : Fin 4) :
    (s.queue l stamp es).line k = s.line k := by
  simp [State.line]
theorem State.line_commitLine (l k : Fin 4) (stamp : Word32) (r : LineStep) :
    (s.commitLine l stamp r).line k = if k = l then r.1 else s.line k := by
  simp [State.line, Four.get_set]

/-! ### The links -/

@[simp] theorem State.link_setLink_same (k : Link) (x : LinkState) : (s.setLink k x).link k = x := by
  cases k <;> rfl

theorem State.link_setLink_ne {k j : Link} (x : LinkState) (h : j ≠ k) : (s.setLink k x).link j = s.link j := by
  cases k <;> cases j <;> first | rfl | exact absurd rfl h

@[simp] theorem State.link_answer_same (k : Link) (r : Result) (fs : List Byte) :
    (s.answer k r fs).link k = { s.link k with response := r.byte :: fs } := by
  cases k <;> rfl

@[simp] theorem State.answer_control_cLink (r : Result) (fs : List Byte) :
    (s.answer .control r fs).cLink = { s.cLink with response := r.byte :: fs } := rfl
@[simp] theorem State.answer_control_mLink (r : Result) (fs : List Byte) : (s.answer .control r fs).mLink = s.mLink := rfl
@[simp] theorem State.answer_media_mLink (r : Result) (fs : List Byte) :
    (s.answer .media r fs).mLink = { s.mLink with response := r.byte :: fs } := rfl
@[simp] theorem State.answer_media_cLink (r : Result) (fs : List Byte) : (s.answer .media r fs).cLink = s.cLink := rfl
@[simp] theorem State.refuse_control_mLink (r : Result) : (s.refuse .control r).mLink = s.mLink := rfl
@[simp] theorem State.refuse_media_cLink (r : Result) : (s.refuse .media r).cLink = s.cLink := rfl
@[simp] theorem State.truncated_control_mLink : (s.truncated .control).mLink = s.mLink := rfl
@[simp] theorem State.truncated_media_cLink : (s.truncated .media).cLink = s.cLink := rfl

end Sys2Proof.Machine
end

