-- ==== Sys2Proof/Laws/Requests.lean ====
section
/-! SUPPORT. What the operations shared by all requests can do: taking a command, the line argument, the ordered checks, the arrival of
event records, and the step. -/

namespace Sys2Proof.Machine

variable {s t : State}

/-! ### Taking a command -/

@[simp] theorem State.take_high {f : State → State} (h : s.resetLow = false) : s.take f = .next (f s) := by
  simp [State.take, h]

@[simp] theorem State.take_low {f : State → State} (h : s.resetLow = true) : s.take f = .next s := by
  simp [State.take, h]

/-- A command taken answers one next state: its effect, or the state itself while RESET is low. -/
theorem State.take_next {f : State → State} (h : s.take f = .next t) :
    (s.resetLow = true ∧ t = s) ∨ (s.resetLow = false ∧ t = f s) := by
  cases hl : s.resetLow
  · rw [State.take_high hl] at h
    exact .inr ⟨rfl, (Host.Outcome.next.inj h).symm⟩
  · rw [State.take_low hl] at h
    exact .inl ⟨rfl, (Host.Outcome.next.inj h).symm⟩

/-! ### The frames of a link (R26, R183) -/

@[simp] theorem State.hear_heard {k : Link} {f : State → State} (h : (s.link k).ignoring = false) : s.hear k f = f s := by
  simp [State.hear, h]

@[simp] theorem State.hear_ignored {k : Link} {f : State → State} (h : (s.link k).ignoring = true) :
    s.hear k f = s.setLink k { s.link k with ignoring := false, response := [] } := by
  simp [State.hear, h]

@[simp] theorem State.finishWrites_idle (h : s.job = none) : s.finishWrites = s := by
  simp [State.finishWrites, h]

@[simp] theorem State.advance_idle {n : Nat} (h : s.job = none) : s.advance n = s := by
  simp [State.advance, h]

@[simp] theorem State.goesOn_idle {k : WriteKind} (h : s.job = none) : s.goesOn k = false := by
  simp [State.goesOn, h]

/-- A Control Link frame that is heard has its effect. -/
theorem State.takeControl_heard {f : State → State} (h : s.resetLow = false) (hi : s.cLink.ignoring = false) :
    s.takeControl f = .next (f s) := by
  rw [State.takeControl, State.take_high h, State.hear_heard (k := .control) hi]

/-- A Media Link frame that is heard, with no line of a write left to write, has its effect. -/
theorem State.takeMedia_heard {f : State → State} (h : s.resetLow = false) (hi : s.mLink.ignoring = false) (hj : s.job = none) :
    s.takeMedia f = .next (f s) := by
  rw [State.takeMedia, State.take_high h, State.hear_heard (k := .media) hi, State.finishWrites_idle hj]

/-- What a Control Link frame can do: nothing while RESET is low, end an ignored frame, or have its effect. -/
theorem State.takeControl_cases {f : State → State} (h : s.takeControl f = .next t) :
    (s.resetLow = true ∧ t = s) ∨
    (s.resetLow = false ∧ s.cLink.ignoring = true ∧ t = s.setLink .control { s.cLink with ignoring := false, response := [] }) ∨
    (s.resetLow = false ∧ s.cLink.ignoring = false ∧ t = f s) := by
  obtain ⟨hl, rfl⟩ | ⟨hl, rfl⟩ := State.take_next h
  · exact .inl ⟨hl, rfl⟩
  · cases hi : s.cLink.ignoring
    · exact .inr (.inr ⟨hl, rfl, State.hear_heard (k := .control) hi⟩)
    · exact .inr (.inl ⟨hl, rfl, State.hear_ignored (k := .control) hi⟩)

/-- What a Media Link frame can do: nothing while RESET is low, end an ignored frame, or have its effect once every line of a write
before it is written. -/
theorem State.takeMedia_cases {f : State → State} (h : s.takeMedia f = .next t) :
    (s.resetLow = true ∧ t = s) ∨
    (s.resetLow = false ∧ s.mLink.ignoring = true ∧ t = s.setLink .media { s.mLink with ignoring := false, response := [] }) ∨
    (s.resetLow = false ∧ s.mLink.ignoring = false ∧ t = f s.finishWrites) := by
  obtain ⟨hl, rfl⟩ | ⟨hl, rfl⟩ := State.take_next h
  · exact .inl ⟨hl, rfl⟩
  · cases hi : s.mLink.ignoring
    · exact .inr (.inr ⟨hl, rfl, State.hear_heard (k := .media) hi⟩)
    · exact .inr (.inl ⟨hl, rfl, State.hear_ignored (k := .media) hi⟩)

/-- What the write events of `n` lines can do: nothing with no write under way, complete it with its response, or leave the rest. -/
theorem State.advance_cases (s : State) (n : Nat) :
    (s.job = none ∧ s.advance n = s) ∨
    ∃ j, s.job = some j ∧
      ((j.left.length ≤ n ∧ s.advance n = (s.writeLines j.write j.left).endWrites j.write
          (j.report ++ (s.reportLines j.write j.left).flatMap (WriteReport.bytes j.write))) ∨
       (n < j.left.length ∧ s.advance n =
          { s.writeLines j.write (j.left.take n) with
            job := some ⟨j.write, j.left.drop n,
              j.report ++ (s.reportLines j.write (j.left.take n)).flatMap (WriteReport.bytes j.write)⟩ })) := by
  cases hj : s.job with
  | none => exact .inl ⟨rfl, State.advance_idle hj⟩
  | some j =>
    refine .inr ⟨j, rfl, ?_⟩
    by_cases hn : j.left.length ≤ n
    · refine .inl ⟨hn, ?_⟩
      simp [State.advance, hj, hn, List.take_of_length_le hn]
    · exact .inr ⟨by omega, by simp [State.advance, hj, hn]⟩

/-! ### The line argument -/

theorem index4_of_lt {b : Byte} (h : b.toNat < 4) : index4 b = some ⟨b.toNat, h⟩ := by
  simp [index4, h]

theorem index4_of_eq {b : Byte} {l : Fin 4} (h : b.toNat = l.val) : index4 b = some l := by
  have hb : b.toNat < 4 := h ▸ l.isLt
  rw [index4_of_lt hb]
  simp [h]

theorem index4_of_ge {b : Byte} (h : 4 ≤ b.toNat) : index4 b = none := by
  simp [index4, Nat.not_lt.mpr h]

@[simp] theorem State.withLine_of_eq {k : Link} {b : Byte} {l : Fin 4} {f : Fin 4 → State} (h : b.toNat = l.val) :
    s.withLine k b f = f l := by
  simp [State.withLine, index4_of_eq h]

@[simp] theorem State.withLine_of_ge {k : Link} {b : Byte} {f : Fin 4 → State} (h : 4 ≤ b.toNat) :
    s.withLine k b f = s.refuse k .range := by
  simp [State.withLine, index4_of_ge h]

/-- A request with a line argument either names a line or is refused RANGE. -/
theorem State.withLine_cases {k : Link} {b : Byte} {f : Fin 4 → State} :
    (∃ l : Fin 4, b.toNat = l.val ∧ s.withLine k b f = f l) ∨ (4 ≤ b.toNat ∧ s.withLine k b f = s.refuse k .range) := by
  by_cases h : b.toNat < 4
  · exact .inl ⟨⟨b.toNat, h⟩, rfl, State.withLine_of_eq rfl⟩
  · exact .inr ⟨by omega, State.withLine_of_ge (by omega)⟩

/-! ### The ordered checks -/

theorem firstFailing_eq_none {cs : List (Bool × Result)} : firstFailing cs = none ↔ ∀ c ∈ cs, c.1 = true := by
  induction cs with
  | nil => simp [firstFailing]
  | cons c cs ih =>
    obtain ⟨ok, r⟩ := c
    cases ok <;> simp [firstFailing, ih]

@[simp] theorem State.checked_pass {k : Link} {cs : List (Bool × Result)} {u : State} (h : firstFailing cs = none) :
    s.checked k cs u = u := by
  simp [State.checked, h]

@[simp] theorem State.checked_fail {k : Link} {cs : List (Bool × Result)} {u : State} {r : Result} (h : firstFailing cs = some r) :
    s.checked k cs u = s.refuse k r := by
  simp [State.checked, h]

/-- A checked request passes every check and is done, or is refused with the result of the first that fails. -/
theorem State.checked_cases {k : Link} {cs : List (Bool × Result)} {u : State} :
    (firstFailing cs = none ∧ s.checked k cs u = u) ∨ ∃ r, firstFailing cs = some r ∧ s.checked k cs u = s.refuse k r := by
  cases h : firstFailing cs with
  | none => exact .inl ⟨rfl, State.checked_pass h⟩
  | some r => exact .inr ⟨r, rfl, State.checked_fail h⟩

/-! ### Event records -/

theorem enqueue_overflowed {q : List EventRecord} {r : EventRecord} (h : overflowed q = true) :
    enqueue q r = q.dropLast ++ (q.getLast?.map EventRecord.discardMore).toList := by
  simp [enqueue, h]

theorem enqueue_room {q : List EventRecord} {r : EventRecord} (h : overflowed q = false) (hl : q.length < 63) :
    enqueue q r = q ++ [r] := by
  simp [enqueue, h, hl]

theorem enqueue_full {q : List EventRecord} {r : EventRecord} (h : overflowed q = false) (hl : 63 ≤ q.length) :
    enqueue q r = q ++ [⟨.overflow 1, none, r.stamp⟩] := by
  simp [enqueue, h, Nat.not_lt.mpr hl]

@[simp] theorem State.queue_nil (l : Fin 4) (stamp : Word32) : s.queue l stamp [] = s := rfl

theorem State.queue_cons (l : Fin 4) (stamp : Word32) (e : Event) (es : List Event) :
    s.queue l stamp (e :: es) = (s.arrive ⟨e, some l, stamp⟩).queue l stamp es := rfl

/-- The queue after the records of one event: each arrives in turn. -/
theorem State.queue_events_eq (l : Fin 4) (stamp : Word32) (es : List Event) :
    (s.queue l stamp es).events = es.foldl (fun q e => enqueue q ⟨e, some l, stamp⟩) s.events := by
  induction es generalizing s with
  | nil => rfl
  | cons e es ih => rw [State.queue_cons, ih, State.arrive_events, List.foldl_cons]

/-- One record arriving at a queue with room is appended. -/
theorem State.queue_one_events {l : Fin 4} {stamp : Word32} {e : Event} (h : overflowed s.events = false)
    (hl : s.events.length < 63) : (s.queue l stamp [e]).events = s.events ++ [⟨e, some l, stamp⟩] := by
  rw [State.queue_events_eq]
  exact enqueue_room h hl

/-! ### The step -/

@[simp] theorem step_cons {c : Instr} {q : List Instr} (h : s.pending = c :: q) : step s = exec c (s.withPending q) := by
  simp [step, h]

@[simp] theorem step_nil (h : s.pending = []) : step s = .next s := by
  simp [step, h]

/-- What a step can do: idle on an empty queue, or run the command in front. -/
theorem step_cases (h : step s = .next t) :
    (s.pending = [] ∧ t = s) ∨ ∃ c q, s.pending = c :: q ∧ exec c (s.withPending q) = .next t := by
  cases hp : s.pending with
  | nil =>
    rw [step_nil hp] at h
    exact .inl ⟨rfl, (Host.Outcome.next.inj h).symm⟩
  | cons c q =>
    rw [step_cons hp] at h
    exact .inr ⟨c, q, rfl, h⟩

end Sys2Proof.Machine
end

