-- ==== Sys2Proof/Laws/Events.lean ====
section
/-! SUPPORT. What the outcome of an event on one line is, where the Event Queue has room for its records (R178, R181): the line's record
replaced, its records queued, everything else as it was. -/

namespace Sys2Proof.Machine

variable {s t : State}

theorem overflowed_append (q : List EventRecord) (r : EventRecord) : overflowed (q ++ [r]) = r.isOverflow := by
  simp [overflowed]

/-- One record arriving with room: appended, and room for one less. -/
theorem State.Room.arrive {n : Nat} {r : EventRecord} (h : s.Room (n + 1)) (hr : r.isOverflow = false) :
    (s.arrive r).events = s.events ++ [r] ∧ (s.arrive r).Room n ∧
      (s.arrive r).cLink = { s.cLink with irq := s.cLink.irq.owe 255 } := by
  obtain ⟨ho, hl⟩ := h
  have he : (s.arrive r).events = s.events ++ [r] := by
    rw [State.arrive_events]
    exact enqueue_room ho (by omega)
  refine ⟨he, ⟨?_, ?_⟩, ?_⟩
  · rw [he, overflowed_append, hr]
  · rw [he, List.length_append, List.length_singleton]
    omega
  · simp [State.arrive, ho]

/-- What an interrupt output owes after one more record (R181). -/
theorem IrqOut.owe_cases (i : IrqOut) : i.owe 255 = { i with owed := (i.owe 255).owed } ∧
    (i.mode = .level → (i.owe 255).owed = i.owed) ∧
    (i.mode = .pulse → i.owed + 1 ≤ 255 → (i.owe 255).owed = i.owed + 1) := by
  unfold IrqOut.owe
  cases hm : i.mode with
  | level =>
    cases i
    simp_all
  | pulse =>
    refine ⟨?_, by simp, fun _ h => ?_⟩
    · cases i
      simp_all
    · show countUp 255 i.owed = i.owed + 1
      unfold countUp
      rw [if_pos (by omega)]

/-- The records of one event, queued where there is room for them. -/
theorem State.Room.queue {l : Fin 4} {stamp : Word32} : ∀ {es : List Event} {s : State}, s.Room es.length →
    (∀ e ∈ es, (recordOf l stamp e).isOverflow = false) → s.Queued (s.queue l stamp es) l stamp es s.cLink.response
  | [], s, _, _ => ⟨by simp, by simp, by simp, by simp, rfl⟩
  | e :: es, s, h, hr => by
    obtain ⟨he, hroom, hc⟩ := State.Room.arrive h (hr e (by simp))
    obtain ⟨h1, h2, h3, h4, h5⟩ := State.Room.queue hroom fun x hx => hr x (by simp [hx])
    obtain ⟨i1, i2, i3⟩ := IrqOut.owe_cases s.cLink.irq
    have hm : (s.cLink.irq.owe 255).mode = s.cLink.irq.mode := by rw [i1]
    rw [State.queue_cons]
    have hm5 : (s.arrive (recordOf l stamp e)).mLink = s.mLink := State.arrive_mLink s _
    show State.Queued s ((s.arrive (recordOf l stamp e)).queue l stamp es) l stamp (e :: es) s.cLink.response
    generalize s.arrive (recordOf l stamp e) = u at *
    have hcm : u.cLink.irq.mode = s.cLink.irq.mode := by rw [hc]; exact hm
    have hco : u.cLink.irq.owed = (s.cLink.irq.owe 255).owed := by rw [hc]
    refine ⟨?_, ?_, fun hl => ?_, fun hp ho => ?_, h5.trans hm5⟩
    · rw [h1, he, List.append_assoc]
      rfl
    · refine h2.trans ?_
      rw [hc]
      dsimp only
      rw [i1]
    · rw [h3 (hcm.trans hl), hco, i2 hl]
    · rw [List.length_cons] at ho ⊢
      have := i3 hp (by omega)
      rw [h4 (hcm.trans hp) (by omega), hco, this]
      omega

/-- An event of one line with room for its records: the frame of what the part does of itself. -/
theorem State.Room.commitLine {l : Fin 4} {stamp : Word32} {r : LineStep} (h : s.Room r.2.length)
    (hr : ∀ e ∈ r.2, (recordOf l stamp e).isOverflow = false) :
    (s.commitLine l stamp r).line l = r.1 ∧ s.OwnEvent (s.commitLine l stamp r) l stamp r.2 := by
  have hq : (s.setLine l r.1).Room r.2.length := ⟨by rw [State.setLine_events]; exact h.1, by rw [State.setLine_events]; exact h.2⟩
  obtain ⟨h1, h2, h3, h4, h5⟩ := State.Room.queue (l := l) (stamp := stamp) hq hr
  refine ⟨by rw [State.line_commitLine, if_pos rfl], ⟨fun k hk => by rw [State.line_commitLine, if_neg hk], ?_, by simp,
    ⟨h1, h2, h3, h4, h5⟩⟩⟩
  constructor <;> simp

end Sys2Proof.Machine
end

