-- ==== Sys2Proof/Laws/Lines.lean ====
section
/-! SUPPORT. What the works of a line leave alone: the timeline (horizon, slot index, rings, configuration) through contexts, rendering,
ringing, hook and detector steps; and what the load does to it. -/

namespace Sys2Proof.Machine

/-- Two records of a line agree on the timeline that only loads, writes and requests of the Playout Engine reach. -/
structure Line.SameTimeline (a b : Line) : Prop where
  enabled : a.enabled = b.enabled
  started : a.started = b.started
  horizon : a.horizon = b.horizon
  hs : a.hs = b.hs
  playRing : a.playRing = b.playRing
  capRing : a.capRing = b.capRing
  playing : a.playing = b.playing
  config : a.config = b.config

namespace Line.SameTimeline

theorem refl (a : Line) : SameTimeline a a := ⟨rfl, rfl, rfl, rfl, rfl, rfl, rfl, rfl⟩

theorem trans {a b c : Line} (h : SameTimeline a b) (g : SameTimeline b c) : SameTimeline a c :=
  ⟨h.enabled.trans g.enabled, h.started.trans g.started, h.horizon.trans g.horizon, h.hs.trans g.hs, h.playRing.trans g.playRing,
    h.capRing.trans g.capRing, h.playing.trans g.playing, h.config.trans g.config⟩

end Line.SameTimeline

variable (L : Line)

theorem Line.dropForeground_timeline : SameTimeline L.dropForeground L := ⟨rfl, rfl, rfl, rfl, rfl, rfl, rfl, rfl⟩

theorem Line.putForeground_timeline (c : Context) : SameTimeline (L.putForeground c) L := ⟨rfl, rfl, rfl, rfl, rfl, rfl, rfl, rfl⟩

theorem Line.ringIdle_timeline : SameTimeline L.ringIdle L := ⟨rfl, rfl, rfl, rfl, rfl, rfl, rfl, rfl⟩

theorem Line.endOnHookCid_timeline : SameTimeline L.endOnHookCid L := by
  unfold Line.endOnHookCid
  dsimp only
  split <;> exact ⟨rfl, rfl, rfl, rfl, rfl, rfl, rfl, rfl⟩

theorem Line.afterCid_timeline : SameTimeline L.afterCid.1 L := by
  unfold Line.afterCid
  split <;> (try split) <;> exact ⟨rfl, rfl, rfl, rfl, rfl, rfl, rfl, rfl⟩

theorem Line.endRinging_timeline (c : AbortCause) : SameTimeline (L.endRinging c).1 L := by
  unfold Line.endRinging
  split
  · exact (Line.ringIdle_timeline _).trans L.endOnHookCid_timeline
  · exact L.ringIdle_timeline

theorem Line.modeForeground_timeline : SameTimeline L.modeForeground.1 L := by
  unfold Line.modeForeground
  split
  · exact (Line.afterCid_timeline _).trans L.endOnHookCid_timeline
  · split
    · split <;> exact ⟨rfl, rfl, rfl, rfl, rfl, rfl, rfl, rfl⟩
    · exact .refl L

theorem Line.modeBackground_timeline : SameTimeline L.modeBackground.1 L := by
  unfold Line.modeBackground
  split <;> exact ⟨rfl, rfl, rfl, rfl, rfl, rfl, rfl, rfl⟩

theorem Line.stageMode_timeline : SameTimeline L.stageMode.1 L := by
  unfold Line.stageMode
  split
  · unfold Line.changeMode Line.resetDetector
    dsimp only
    have h := (Line.modeBackground_timeline L.modeForeground.1).trans L.modeForeground_timeline
    exact ⟨h.1, h.2, h.3, h.4, h.5, h.6, h.7, h.8⟩
  · exact .refl L

theorem Line.stageContent_timeline (slot : StoreCell) : SameTimeline (L.stageContent slot) L := by
  unfold Line.stageContent Line.filledLoaded Line.emptyLoaded
  dsimp only
  split
  · exact ⟨rfl, rfl, rfl, rfl, rfl, rfl, rfl, rfl⟩
  · split <;> exact ⟨rfl, rfl, rfl, rfl, rfl, rfl, rfl, rfl⟩

theorem Line.setContext_timeline (v : Level) (c : Context) : SameTimeline (L.setContext v c) L := by
  cases v <;> exact ⟨rfl, rfl, rfl, rfl, rfl, rfl, rfl, rfl⟩

theorem Line.dropContext_timeline (v : Level) : SameTimeline (L.dropContext v) L := by
  cases v <;> exact ⟨rfl, rfl, rfl, rfl, rfl, rfl, rfl, rfl⟩

theorem Line.endOffHookCid_timeline : SameTimeline L.endOffHookCid L := ⟨rfl, rfl, rfl, rfl, rfl, rfl, rfl, rfl⟩

theorem Line.renderStep_timeline (tones : List ToneEntry) (programs : List ProgramRecord) (v : Level) (c : Context) :
    SameTimeline (L.renderStep tones programs v c).1 L := by
  unfold Line.renderStep
  split
  · split
    · exact L.setContext_timeline v _
    · exact L.dropContext_timeline v
  · dsimp only
    split
    · exact (Line.afterCid_timeline _).trans L.endOnHookCid_timeline
    · exact L.setContext_timeline v _
  · split
    · exact L.setContext_timeline v _
    · exact L.endOffHookCid_timeline

theorem Line.stageRender_timeline (i : LoadInput) : SameTimeline (L.stageRender i).1 L := by
  unfold Line.stageRender
  split
  · dsimp only
    split
    · exact (Line.renderStep_timeline _ _ _ _ _).trans ⟨rfl, rfl, rfl, rfl, rfl, rfl, rfl, rfl⟩
    · exact Line.renderStep_timeline _ _ _ _ _
  · exact .refl L

theorem Line.stageSlip_timeline (output : Bool) (cell : List Sample) : SameTimeline (L.stageSlip output cell) L := by
  unfold Line.stageSlip
  split <;> exact ⟨rfl, rfl, rfl, rfl, rfl, rfl, rfl, rfl⟩

theorem Line.autoFaxAction_timeline : SameTimeline L.autoFaxAction L := by
  unfold Line.autoFaxAction
  split <;> exact ⟨rfl, rfl, rfl, rfl, rfl, rfl, rfl, rfl⟩

theorem Line.stepPlayoutAnswer_timeline (c : CellClass) : SameTimeline (L.stepPlayoutAnswer c).1 L := by
  unfold Line.stepPlayoutAnswer
  dsimp only
  split
  · exact (Line.autoFaxAction_timeline _).trans ⟨rfl, rfl, rfl, rfl, rfl, rfl, rfl, rfl⟩
  · exact ⟨rfl, rfl, rfl, rfl, rfl, rfl, rfl, rfl⟩

theorem Line.stageFeed_timeline (cell : List Sample) : SameTimeline (L.stageFeed cell).1 L := by
  unfold Line.stageFeed
  split
  · exact L.stepPlayoutAnswer_timeline _
  · exact .refl L

/-- What a load does to the line's timeline (R10, R81): H advances by 40 and hs by 1 modulo Lp, and all else of it is kept. -/
theorem Line.loadCell_timeline (i : LoadInput) :
    SameTimeline (L.loadCell i).1 { L with horizon := L.horizon + 40, hs := (L.hs + 1) % L.lp } := by
  unfold Line.loadCell
  dsimp only
  generalize hcell : Line.finalCell _ i _ = cell
  generalize hout : Line.carriesOutput _ = output
  have hr := (Line.stageRender_timeline (L.stageMode.1.stageContent i.slot) i).trans
    ((Line.stageContent_timeline _ i.slot).trans L.stageMode_timeline)
  have hs := (Line.stageSlip_timeline ((L.stageMode.1.stageContent i.slot).stageRender i).1 output cell).trans hr
  have hf := (Line.stageFeed_timeline _ cell).trans hs
  have hw : ∀ (M : Line) (x : Int), SameTimeline M L →
      SameTimeline (M.stageLoad cell x).stageWindow { L with horizon := L.horizon + 40, hs := (L.hs + 1) % L.lp } := by
    intro M x h
    have hlp : M.lp = L.lp := by simp only [Line.lp, h.playRing]
    unfold Line.stageWindow Line.stageLoad Line.setHalf
    rw [hlp]
    split <;> split <;>
      exact ⟨h.enabled, h.started, by simp [h.horizon], by simp [h.hs], h.playRing, h.capRing, h.playing, h.config⟩
  have := hw _ (Line.slipOfCell ((L.stageMode.1.stageContent i.slot).stageRender i).1 output cell) hf
  exact ⟨this.1, this.2, this.3, this.4, this.5, this.6, this.7, this.8⟩

end Sys2Proof.Machine
end

