-- ==== Sys2Proof/Laws/Store.lean ====
section
/-! SUPPORT. The Sample Store's laws: reading after writing, and that every operation keeps the canonical form. -/

namespace Sys2Proof.Machine

/-! ### The canonical form -/

theorem Store.wfFrom_mono {lo lo' : Nat} (h : lo' ≤ lo) : ∀ {st : Store}, st.wfFrom lo = true → st.wfFrom lo' = true
  | [], _ => rfl
  | (k, c) :: rest, w => by
    simp only [Store.wfFrom, Bool.and_eq_true, decide_eq_true_eq] at w ⊢
    exact ⟨⟨⟨by omega, w.1.1.2⟩, w.1.2⟩, w.2⟩

theorem Store.wfFrom_erase {a lo : Nat} : ∀ {st : Store}, st.wfFrom lo = true → (st.erase a).wfFrom lo = true
  | [], _ => rfl
  | (k, c) :: rest, w => by
    have w' := w
    simp only [Store.wfFrom, Bool.and_eq_true, decide_eq_true_eq] at w
    unfold Store.erase
    split
    · exact Store.wfFrom_mono (by omega) w.2
    · split
      · exact w'
      · simp only [Store.wfFrom, Bool.and_eq_true, decide_eq_true_eq]
        exact ⟨w.1, Store.wfFrom_erase w.2⟩

theorem Store.wfFrom_insert {a lo : Nat} {c : StoreCell} (ha : a < 1024) (hc : c ≠ StoreCell.reset) :
    ∀ {st : Store}, lo ≤ a → st.wfFrom lo = true → (st.insert a c).wfFrom lo = true
  | [], hl, _ => by
    simp only [Store.insert, Store.wfFrom, Bool.and_eq_true, decide_eq_true_eq]
    exact ⟨⟨⟨hl, ha⟩, hc⟩, trivial⟩
  | (k, d) :: rest, hl, w => by
    have w' := w
    simp only [Store.wfFrom, Bool.and_eq_true, decide_eq_true_eq] at w
    unfold Store.insert
    split
    · simp only [Store.wfFrom, Bool.and_eq_true, decide_eq_true_eq]
      subst a
      exact ⟨⟨⟨hl, ha⟩, hc⟩, w.2⟩
    · split
      · simp only [Store.wfFrom, Bool.and_eq_true, decide_eq_true_eq]
        exact ⟨⟨⟨hl, ha⟩, hc⟩, ⟨⟨by omega, w.1.1.2⟩, w.1.2⟩, w.2⟩
      · simp only [Store.wfFrom, Bool.and_eq_true, decide_eq_true_eq]
        exact ⟨w.1, Store.wfFrom_insert ha hc (by omega) w.2⟩

/-- A write keeps the canonical form. -/
theorem Store.wf_write {st : Store} (a : Nat) (c : StoreCell) (h : st.wf = true) : (st.write a c).wf = true := by
  unfold Store.write
  split
  · exact h
  · split
    · exact Store.wfFrom_erase h
    · exact Store.wfFrom_insert (by omega) (by assumption) (Nat.zero_le _) h

theorem Store.wf_emptyCells {st : Store} (base : Nat) (h : st.wf = true) : ∀ n, (st.emptyCells base n).wf = true
  | 0 => h
  | n + 1 => Store.wf_write _ _ (Store.wf_emptyCells base h n)

theorem Store.wf_emptyRing {st : Store} (L : Line) (h : st.wf = true) : (st.emptyRing L).wf = true :=
  Store.wf_emptyCells _ h _

theorem Store.wf_clearSource {st : Store} (s : Fin 4) (base : Nat) (h : st.wf = true) : ∀ n, (st.clearSource s base n).wf = true
  | 0 => h
  | n + 1 => Store.wf_write _ _ (Store.wf_clearSource s base h n)

theorem Store.wf_placeCell {L : Line} {w : Write} {d0 : Int} {a : Store × Tally} (c : Nat × List Sample) (h : a.1.wf = true) :
    (L.placeCell w d0 a c).1.wf = true := by
  unfold Line.placeCell
  simp only
  split
  · exact h
  · split
    · exact h
    · split
      · exact h
      · exact Store.wf_write _ _ h

theorem Store.wf_placeCells {L : Line} {w : Write} {d0 : Int} {st : Store} (h : st.wf = true) :
    (L.placeCells w d0 st).1.wf = true := by
  unfold Line.placeCells
  suffices ∀ (cs : List (Nat × List Sample)) (a : Store × Tally), a.1.wf = true → (cs.foldl (L.placeCell w d0) a).1.wf = true from
    this _ _ h
  intro cs
  induction cs with
  | nil => exact fun _ h => h
  | cons c cs ih => exact fun a h => ih _ (Store.wf_placeCell c h)

/-! ### Reading -/

theorem Store.read_insert (a b : Nat) (c : StoreCell) : ∀ st : Store, (st.insert a c).read b = if b = a then c else st.read b
  | [] => by
    by_cases h : b = a
    · simp [Store.insert, Store.read, h]
    · simp [Store.insert, Store.read, h, Ne.symm h]
  | (k, d) :: rest => by
    have ih := Store.read_insert a b c rest
    unfold Store.insert
    split
    · subst k
      by_cases h : b = a
      · simp [Store.read, h]
      · simp [Store.read, h, Ne.symm h]
    · split
      · by_cases h : b = a
        · simp [Store.read, h]
        · simp [Store.read, h, Ne.symm h]
      · by_cases h : k = b
        · subst b
          simp [Store.read, show ¬ k = a by assumption]
        · simp [Store.read, h, ih]

theorem Store.read_below {st : Store} {lo b : Nat} (h : st.wfFrom lo = true) (hb : b < lo) : st.read b = .reset := by
  induction st generalizing lo with
  | nil => rfl
  | cons x rest ih =>
    obtain ⟨k, c⟩ := x
    simp only [Store.wfFrom, Bool.and_eq_true, decide_eq_true_eq] at h
    have : ¬ k = b := by omega
    simp only [Store.read, this, if_false]
    exact ih h.2 (by omega)

theorem Store.read_erase {st : Store} {lo : Nat} (a b : Nat) (h : st.wfFrom lo = true) :
    (st.erase a).read b = if b = a then .reset else st.read b := by
  induction st generalizing lo with
  | nil => simp [Store.erase, Store.read]
  | cons x rest ih =>
    obtain ⟨k, c⟩ := x
    simp only [Store.wfFrom, Bool.and_eq_true, decide_eq_true_eq] at h
    unfold Store.erase
    split
    · subst k
      by_cases hb : b = a
      · subst hb
        simp [Store.read_below h.2 (Nat.lt_succ_self b)]
      · simp [Store.read, hb, Ne.symm hb]
    · split
      · by_cases hb : b = a
        · subst hb
          have hk : ¬ k = b := by assumption
          simp [Store.read, hk, Store.read_below h.2 (show b < k + 1 by omega)]
        · simp [hb]
      · by_cases hk : k = b
        · subst b
          have hka : ¬ k = a := by assumption
          simp [Store.read, hka]
        · simp [Store.read, hk, ih h.2]

/-- What a write gives at any cell: the content at the cell written, and every other cell as before. -/
theorem Store.read_write {st : Store} {a : Nat} (b : Nat) (c : StoreCell) (h : st.wf = true) (ha : a < 1024) :
    (st.write a c).read b = if b = a then c else st.read b := by
  unfold Store.write
  rw [if_neg (by omega)]
  split
  · subst c
    exact Store.read_erase a b h
  · exact Store.read_insert a b c st

/-- A cell beyond the store reads as a reset cell. -/
theorem Store.read_beyond {st : Store} {a : Nat} (h : st.wf = true) (ha : 1024 ≤ a) : st.read a = .reset := by
  unfold Store.wf at h
  revert h
  generalize 0 = lo
  intro h
  induction st generalizing lo with
  | nil => rfl
  | cons x rest ih =>
    obtain ⟨k, c⟩ := x
    simp only [Store.wfFrom, Bool.and_eq_true, decide_eq_true_eq] at h
    have : ¬ k = a := by omega
    simp only [Store.read, this, if_false]
    exact ih _ h.2

/-- A write leaves every other cell as it was, wherever it goes. -/
theorem Store.read_write_ne {st : Store} {a b : Nat} (c : StoreCell) (h : st.wf = true) (hb : b ≠ a) :
    (st.write a c).read b = st.read b := by
  by_cases ha : a < 1024
  · rw [Store.read_write b c h ha, if_neg hb]
  · unfold Store.write
    rw [if_pos (by omega)]

/-- Emptied cells read as EMPTY slots, every other cell as before. -/
theorem Store.read_emptyCells {st : Store} (base b : Nat) (h : st.wf = true) :
    ∀ n, base + n ≤ 1024 → (st.emptyCells base n).read b = if base ≤ b ∧ b < base + n then .reset else st.read b
  | 0, _ => by
    rw [if_neg (by omega)]
    rfl
  | n + 1, hn => by
    rw [Store.emptyCells, Store.read_write b _ (Store.wf_emptyCells base h n) (by omega),
      Store.read_emptyCells base b h n (by omega)]
    by_cases hb : b = base + n
    · rw [if_pos hb, if_pos (by omega)]
    · rw [if_neg hb]
      by_cases h2 : base ≤ b ∧ b < base + n
      · rw [if_pos h2, if_pos (by omega)]
      · rw [if_neg h2, if_neg (by omega)]

/-- A source is cleared from the cells of a range, and every other cell is as before. -/
theorem Store.read_clearSource {st : Store} (s : Fin 4) (base b : Nat) (h : st.wf = true) :
    ∀ n, base + n ≤ 1024 →
      (st.clearSource s base n).read b = if base ≤ b ∧ b < base + n then (st.read b).dropSource s else st.read b
  | 0, _ => by
    rw [if_neg (by omega)]
    rfl
  | n + 1, hn => by
    have ih := Store.read_clearSource s base b h n (by omega)
    have ih' := Store.read_clearSource s base (base + n) h n (by omega)
    rw [if_neg (by omega)] at ih'
    rw [Store.clearSource, Store.read_write b _ (Store.wf_clearSource s base h n) (by omega), ih, ih']
    by_cases hb : b = base + n
    · rw [if_pos hb, if_pos (by omega), hb]
    · rw [if_neg hb]
      by_cases h2 : base ≤ b ∧ b < base + n
      · rw [if_pos h2, if_pos (by omega)]
      · rw [if_neg h2, if_neg (by omega)]

/-- The FILLED count is at most the number of cells counted. -/
theorem Store.countFilled_le (st : Store) (base : Nat) : ∀ n, st.countFilled base n ≤ n
  | 0 => Nat.le_refl 0
  | n + 1 => by
    have := Store.countFilled_le st base n
    rw [Store.countFilled]
    split <;> omega

end Sys2Proof.Machine
end

