-- ==== Sys2Proof/Tests/Slice0.lean ====
section
/-! SUPPORT. Tests of one command on a small state, with results from the manual's worked cases, and for every statement with hypotheses a
witness that meets them all together. -/

namespace Sys2Proof.Tests

-- One test after another: each is evaluated by the kernel, and many at once want a thread each.
set_option Elab.async false

open Machine

/-! ### Small states -/

/-- The state after one command; every command answers a next state. -/
def after (c : Instr) (s : State) : State :=
  match exec c s with
  | .next t => t
  | _ => s

/-- The state after some commands. -/
def afterAll (cs : List Instr) (s : State) : State := cs.foldl (fun t c => after c t) s

/-- RUNNING, in global cell 5. -/
def running : State := { State.reset with timebase := .running, g := 5 }

/-- An enabled and started line with a playout ring of 8 slots from cell 16 and a capture ring of 4 places from cell 100. -/
def live : Line :=
  { Line.reset with
    enabled := true, started := true, playRing := some ⟨16, 8⟩, capRing := some ⟨100, 4⟩, hs := 6, horizon := 400
    config := { PlayoutConfig.reset with voiceDepth := 3, faxDepth := 5 } }

/-- Line 1 replaced by `L`. -/
def with1 (L : Line) : State := running.setLine 1 L

/-- Every work of a line due. -/
def allDue : Due := ⟨false, true, true, true, true, true⟩

/-- A live line with its load due. -/
def loading : Line := { live with due := allDue, playout := .running }

/-- A live line whose load, detector step and hook sample are due, with a class for the closed capture half. -/
def hearing (c : CellClass) (d : Detector) : State :=
  with1 { live with due := allDue, capSecond := ⟨silence, 0, c⟩, detector := d }

/-- A live line whose hook sample is due. -/
def hooked (h : Classifier) (pin : Bool) : State := with1 { live with due := allDue, hook := h, hookPin := pin }

/-- A live line whose ring step is due. -/
def rung (r : RingRecord) : State := with1 { live with due := allDue, ring := r }

/-- The 256 bits of a frame with a sample in each of the timeslots 0..3. -/
def frameBits (a b c d : Sample) : BitVec 256 := a ++ b ++ c ++ d ++ (0 : BitVec 192)

/-- The last response on the M-link. -/
def mBytes (s : State) : List Byte := s.mLink.response

/-- The last response on the C-link. -/
def cBytes (s : State) : List Byte := s.cLink.response

/-- A program context. -/
def program (st : CtxState) (r : Nat) (run : ProgramRun) : Context := ⟨st, .exclusive, .program r run⟩

/-! ### WellFormed: each check refuses an ill-formed term -/

theorem test_wf_tones_count : WellFormed (.writeTones 0 2 [1]) = false := by decide
theorem test_wf_tones_refused_start : WellFormed (.writeTones 40 1 [1]) = false := by decide
theorem test_wf_program : WellFormed (.writeProgram 0 0 1 2 [⟨0, 1⟩]) = false := by decide
theorem test_wf_program_refused_count : WellFormed (.writeProgram 0 0 1 9 [⟨0, 1⟩]) = false := by decide
theorem test_wf_cid : WellFormed (.loadCid 0 4 2 [1]) = false := by decide
theorem test_wf_data : WellFormed (.depositData 2 [1]) = false := by decide
theorem test_wf_pattern : WellFormed (.loadFillPattern 40 [1]) = false := by decide
theorem test_wf_realign : WellFormed (.realign 0 0 1) = false := by decide
theorem test_wf_realign_clear : WellFormed (.realignWithClear 0 0 0) = false := by decide
theorem test_wf_unknown : WellFormed (.unknownCode .media 0x40) = false := by decide
theorem test_wf_truncated_bare : WellFormed (.truncatedFrame .media 0x42) = false := by decide
theorem test_wf_accepts : WellFormed (.writeTones 0xFF 1 [1]) = true ∧ WellFormed (.loadCid 0 4 61 []) = true := by decide

/-! ### Worked cases of the manual -/

/-- 1.3 and R1: HELD after a reset; ENABLE LINE is refused STATE while HELD. -/
theorem test_enable_held : cBytes (after (.enableLine 0) State.reset) = [3] := by decide +kernel

/-- 2.2, the worked sequence of eleven requests. -/
theorem test_partition :
    (([ (0, 0, 64, 64, 16), (1, 80, 64, 144, 16), (2, 60, 64, 200, 16), (2, 160, 256, 416, 64), (3, 960, 64, 1020, 8),
       (3, 480, 8, 484, 4), (3, 480, 8, 488, 4), (0, 40, 32, 72, 8), (1, 0, 40, 500, 0) ] :
        List (Byte × Word16 × Word16 × Word16 × Byte)).foldl
      (fun (a : State × List Byte) r =>
        let t := after (.configureLine r.1 r.2.1 r.2.2.1 r.2.2.2.1 r.2.2.2.2) a.1
        (t, a.2 ++ cBytes t)) (running, [])).2 = [0, 0, 2, 0, 2, 2, 0, 0, 2] := by
  decide +kernel

/-- 2.2, step 11: an ENABLED line is refused STATE. -/
theorem test_configure_enabled : cBytes (after (.configureLine 1 0 40 500 4) (with1 live)) = [3] := by decide +kernel

/-- 4.5, the worked cases: invert and gain. -/
theorem test_gain : ([(-32768, true, 1), (-5, false, -1), (3, false, -1), (6, false, -2), (-6, false, -2), (5, false, -2), (32767, false, -8),
      (-32768, false, -8), (-1, false, -8), (-4096, false, 3)] : List (Int × Bool × Int)).map
      (fun x => (transform x.2.1 x.2.2 [BitVec.ofInt 16 x.1]).map BitVec.toInt) =
    [[32767], [-2], [2], [2], [-1], [1], [128], [-128], [0], [-32768]] := by decide +kernel

/-- 4.5, the two worked cases with ADD. -/
theorem test_gain_add : (addCells [30000] (transform true (-1) [BitVec.ofInt 16 (-12345)])).map BitVec.toInt = [32767] ∧
    (addCells [BitVec.ofInt 16 (-20000)] (transform false 3 [5000])).map BitVec.toInt = [12767] := by decide +kernel

/-- 7.1, the worked sequence of the staging: cursor and staged fields after each request. -/
theorem test_staging :
    (([(4, [350, 440, 26, 440, 0]), (0xFF, [30, 480, 620, 26]), (0xFF, [1400, 2060]), (31, [4500, 0, 200]), (0xFF, [2100])] :
        List (Byte × List Word16)).foldl
      (fun (a : State × List (List Byte)) r =>
        let t := after (.writeTones r.1 (BitVec.ofNat 8 r.2.length) r.2) a.1
        (t, a.2 ++ [cBytes t])) (running, [])).2 = [[0, 5, 2], [0, 7, 0], [0, 7, 2], [0, 0, 0], [0, 0, 1]] := by
  decide +kernel

/-- 7.3, the worked case: increments, amplitude, the first two samples, the phases after a cell. -/
theorem test_tone : (Tone.start ⟨350, 440, 26⟩).incA = 2867 ∧ (Tone.start ⟨350, 440, 26⟩).incB = 3604 ∧
    (Tone.start ⟨350, 440, 26⟩).amplitude = 3668 ∧ Tone.samples 2 (Tone.start ⟨350, 440, 26⟩) = [0, 2238] ∧
    (Tone.after 40 (Tone.start ⟨350, 440, 26⟩)).phaseA = 49144 ∧ (Tone.after 40 (Tone.start ⟨350, 440, 26⟩)).phaseB = 13088 := by
  decide +kernel

/-- 8.1, the worked case: the checksum is 101. -/
theorem test_checksum : cBytes (after (.loadCid 1 4 8 [48, 51, 49, 53, 49, 50, 51, 48]) (with1 live)) = [0, 101] := by decide +kernel

/-- 8.2: the amplitude after a reset, and the phases after the first three bits of an on-hook FSK. -/
theorem test_fsk : (Fsk.start 10).amplitude = 9213 ∧ (Fsk.after true ⟨4, [], 0⟩ 7 (Fsk.start 10)).phase = 60618 ∧
    (Fsk.after true ⟨4, [], 0⟩ 14 (Fsk.start 10)).phase = 63892 ∧
    (Fsk.after true ⟨4, [], 0⟩ 20 (Fsk.start 10)) = ⟨40952, 0, 3, 9213⟩ := by decide +kernel

/-- 11.4, the worked sequence: the 63rd record is appended, the next becomes OVERFLOW, an arrival after it is discarded and counted. -/
theorem test_overflow :
    (((List.replicate 62 ⟨.flash, some 3, 1⟩ : List EventRecord).length + 2 = 64) ∧
      (enqueue (enqueue (enqueue (List.replicate 62 ⟨.flash, some 3, 1⟩) ⟨.digit 5, some 0, 500⟩) ⟨.flash, some 0, 500⟩)
        ⟨.onHook, some 0, 700⟩).getLast? = some ⟨.overflow 2, none, 500⟩) := by decide +kernel

/-- 11.6, the worked sequence: the open deposit, its truncated data, the link status, the refused commit. -/
theorem test_two_frames :
    let a := after (.openDeposit 2 0 4000 0x10 0x0F) running
    let b := after (.truncatedFrame .media 0x41) a
    let c := after (.readLinkStatus .media) b
    let d := after (.commitDeposit 4) c
    let e := after (.readLinkStatus .media) d
    mBytes a = [0, 0] ∧ mBytes b = [] ∧ mBytes c = [0, 1, 0, 2, 2, 1, 0, 0] ∧ mBytes d = [4] ∧ mBytes e = [0, 5, 0, 0, 0, 0, 0, 0] ∧
      mBytes (after (.clearLinkStatus .media) e) = [0] := by decide +kernel

/-- R173: a code of the other link is unknown. -/
theorem test_unknown : mBytes (after (.unknownCode .media 0x01) running) = [0x0B] := by decide +kernel

/-- 9.1, the worked sequence: sample 13 makes the first pulse; three cells are a glitch; 60 cells are a flash; the 181st sample hangs up. -/
theorem test_hook :
    ((hooked ⟨.brk 12 .offhook, 0⟩ true |> after (.hookSample 1)).line 1).hook = ⟨.dialing 0, 1⟩ ∧
    ((hooked ⟨.brk 3 .offhook, 0⟩ true |> after (.hookSample 1)).line 1).hook = ⟨.offhook, 0⟩ ∧
    (hooked ⟨.brk 60 .offhook, 0⟩ true |> after (.hookSample 1)).events = [⟨.flash, some 1, 4⟩] ∧
    (hooked ⟨.brk 180 .offhook, 0⟩ false |> after (.onHook 1)).events = [⟨.onHook, some 1, 4⟩] := by decide +kernel

/-- 9.1: PULSE DIGIT 2 at the 60th make sample; eleven pulses are DIAL ERROR 11; a qualified OFF-HOOK. -/
theorem test_dial :
    (hooked ⟨.dialing 59, 2⟩ true |> after (.pulseDigit 1)).events = [⟨.pulseDigit 2, some 1, 4⟩] ∧
    (hooked ⟨.dialing 59, 11⟩ true |> after (.pulseDigit 1)).events = [⟨.dialError 11, some 1, 4⟩] ∧
    (hooked ⟨.onhook 3, 0⟩ true |> after (.offHook 1)).events = [⟨.offHook false, some 1, 4⟩] := by decide +kernel

/-- R30 to R44: a commit on one line writes every cell of the deposit and answers the margin. -/
theorem test_commit :
    mBytes (after (.commitDeposit 4) { with1 live with deposit := some ⟨⟨false, true, false, false⟩, 2, 40, 1, .replace, false, 0, false,
      List.replicate 40 9, false⟩ }) = [0, 0, 0, 0, 0, 0, 120] := by decide +kernel

/-- R26, R45, R54: a load of line 1 comes between the writes of a commit to line 1 and to line 2, which is DISABLED. -/
theorem test_commit_line_by_line :
    let s := { with1 { live with due := ⟨false, true, false, false, false, false⟩ } with deposit := some ⟨⟨false, true, true, false⟩, 2, 40, 1,
      .replace, false, 0, false, List.replicate 40 9, false⟩ }
    let a := after (.commitDeposit 1) s
    let b := after (.load 1) a
    let c := after (.commitDeposit 1) b
    a.job.isSome = true ∧ mBytes a = [] ∧ (b.line 1).horizon = 440 ∧ c.job = none ∧ c.deposit = none ∧
      mBytes c = [0, 0, 0, 0, 0, 0, 120, 6, 0, 0, 0, 0, 0] := by decide +kernel

/-- R66, R67: a fill on a DISABLED line answers OFF for it. -/
theorem test_fill_off : mBytes (after (.fillCells 1 0 0 0x01 0 4) running) = [0, 6, 0, 0, 0, 0] := by decide +kernel

/-- R85: the defaults read back when the same values are set. -/
theorem test_set_playout : mBytes (after (.setPlayout 0 ⟨8, 24, 40, 20, 40, 160, 200, 256, 0x0E, 1, 0, 2⟩) running) =
    [0, 8, 24, 40, 20, 0, 40, 0, 160, 0, 200, 1, 0, 0x0E, 1, 0, 2] := by decide +kernel

/-- R87: a slip request of −128 is clamped to −40. -/
theorem test_realign : mBytes (after (.realign 1 0x80 0) (with1 live)) = [0, 0xD8] := by decide +kernel

/-- 6.5, the last rows: a store into a full ring gives up the oldest record and counts an overrun. -/
theorem test_capture_overrun :
    let t := after (.captureStore 1) (with1 { live with due := allDue, capWrite := 2, capRead := 2, unread := 4 })
    (t.line 1).capWrite = 3 ∧ (t.line 1).capRead = 3 ∧ (t.line 1).unread = 4 ∧ (t.line 1).stats.overruns = 1 := by decide +kernel

/-- R177 of a DISABLED line: OFF, no horizon, no playing half. -/
theorem test_line_status : (cBytes (after (.lineStatus .control 2) running)).take 9 = [0, 0, 0xFF, 0, 0, 0, 0, 0, 0] := by decide +kernel

/-- R177, R9: an ENABLED line before its start boundary reads as IDLE with horizon 0 and no playing half, though a write has anchored it. -/
theorem test_line_status_before_start :
    (cBytes (after (.lineStatus .control 1) (with1 { live with started := false, playout := .running }))).take 9 =
      [0, 1, 0, 0, 0, 0, 0, 0, 0] := by decide +kernel

/-- R180: an empty queue answers OK with no records. -/
theorem test_read_events : cBytes (after (.readEvents 16) running) = [0, 0] := by decide +kernel

/-- R152, R156: a ringing begins with RINGEN high; RING STOP queues RING DONE cause STOP. -/
theorem test_ring :
    let t := after (.ringStart 1 40 80 2 0 0) (with1 live)
    (t.line 1).ringen = true ∧ (after (.ringStop 1) t).events = [⟨.ringDone .stop, some 1, 5⟩] := by decide +kernel

/-- R3, R9: the boundary after 40 frames, and the start boundary it leaves to an enabled line. -/
theorem test_boundary :
    let t := after .globalCellBoundary { with1 { live with started := false } with frame := 40 }
    t.g = 6 ∧ t.frame = 0 ∧ ((after (.startBoundary 1) t).line 1).started = true := by decide +kernel

/-- R84: with slip +1 the last sample is sent twice, and the halves change after 41 samples. -/
theorem test_slip_frame :
    let t := after (.highwayFrame (frameBits 7 7 7 7) (Four.all true))
      (with1 { live with sent := 40, playFirst := ⟨List.range 40 |>.map fun i => BitVec.ofNat 16 i, 7200, 1⟩ })
    t.htx = ⟨0, 39, 0, 0⟩ ∧ (t.line 1).playing = .second ∧ (t.line 1).due.load = true ∧ (t.line 1).capFirst = ⟨[7], 7239, .none⟩ := by
  decide +kernel

/-- R4: the sample of line 1 is the second timeslot of HRX, most significant bit first; timeslots 4..15 are not sampled. -/
theorem test_hrx :
    hrxSamples (frameBits 1 0x8002 3 4 ||| 1) = ⟨1, 0x8002, 3, 4⟩ ∧
    ((after (.highwayFrame (frameBits 1 0x8002 3 4) (Four.all true)) (with1 live)).line 1).capFirst.samples = [0x8002] := by
  decide +kernel

/-- R73, R74: the load of an EMPTY slot in RUNNING VOICE halves the repeat buffer once. -/
theorem test_conceal :
    attenuate 1 (List.replicate 40 5) = List.replicate 40 3 ∧ attenuate 2 (List.replicate 40 (-5)) = List.replicate 40 (-1) := by
  decide +kernel

/-- R103, R181: an owed pulse is low after one REFCLK edge and done after five. -/
theorem test_pulse :
    let s := { running with mLink := { LinkState.reset with irq := ⟨.pulse, 1, 0, 0⟩ } }
    (after (.mirqPulse 1) s).mirq = true ∧ (after (.mirqPulse 5) s).mirq = false ∧ (after (.mirqPulse 5) s).mLink.irq.owed = 0 := by
  decide +kernel

/-- R94: the load that ends an EXCLUSIVE foreground marks the new cell though an EXCLUSIVE background resumes in it, and so does a START SIGNAL
that replaces an EXCLUSIVE background by another; a load that goes on with one does not. -/
theorem test_mark :
    let b : Line := { live with background := some (program .suspended 3 ⟨0, 0, none, .idle⟩), due := allDue }
    let p (f : ProgramRun) (L : Line) : State := { with1 { L with foreground := some (program .active 2 f) } with
      programs := State.reset.programs.set 2 ⟨.exclusive, 1, false, [⟨none, 9⟩]⟩ }
    ((after (.load 1) (p ⟨0, 1, some 1, .idle⟩ b)).line 1).mark = true ∧ ((after (.load 1) (p ⟨0, 2, some 1, .idle⟩ b)).line 1).mark = false ∧
    ((after (.startSignal 1 2 0) { p ⟨0, 1, some 1, .idle⟩ b with
      lines := State.reset.lines.set 1 { live with background := some (program .active 3 ⟨0, 0, none, .idle⟩) } }).line 1).mark = true := by
  decide +kernel

/-- R102, R181: MIRQ and CIRQ in LEVEL mode. -/
theorem test_level_outputs : (with1 { live with unread := 2 }).mirq = true ∧ (with1 { live with unread := 1 }).mirq = false ∧
    running.cirq = false ∧ { running with events := [⟨.flash, some 3, 1⟩] }.cirq = true := by decide +kernel

/-- R178: DIGIT END of digit 5 of line 2 after 300 cells at global cell 500, and an OVERFLOW of 258 discards. -/
theorem test_event_bytes : (⟨.digitEnd 5 300, some 2, 500⟩ : EventRecord).bytes = [0x11, 2, 0, 0, 1, 244, 5, 1, 44, 0] ∧
    (⟨.overflow 258, none, 500⟩ : EventRecord).bytes = [0x7F, 0xFF, 0, 0, 1, 244, 1, 2, 0, 0] := by decide +kernel

/-- R158: −45 dBm0, where a sine of peak 32767 stands at +3 dBm0, lies between a constant level of 92 and one of 93. -/
theorem test_level : loudEnough (List.replicate 40 92) = false ∧ loudEnough (List.replicate 40 (-93)) = true := by decide +kernel

/-- R1: with RESET low CSDO is high impedance; R183: a frame whose chip select is low when RESET returns high is ignored, the next one taken. -/
theorem test_reset_links :
    (after (.deviceReset true false false) running).outputByte .control true 0 0 = none ∧
    cBytes (after (.readEvents 16) (after (.deviceReset false true false) running)) = [] ∧
    cBytes (after (.readEvents 16) (after (.readEvents 16) (after (.deviceReset false true false) running))) = [0, 0] := by
  decide +kernel

/-- The table gives no command a word. -/
theorem test_no_word : decodeTableWord 32 0x40 = none ∧ State.reset.withFetchWord 32 0x40 = State.reset := by decide +kernel

/-! ### Witnesses: for each statement a state and operands that meet all its hypotheses -/

/-- Either link of a running state with one line is heard, and the byte 1 names line 1. -/
theorem named1 (k : Link) (L : Line) : (with1 L).Names k 1 1 :=
  ⟨⟨rfl, by cases k <;> rfl, fun _ => rfl⟩, by decide⟩

/-- Either link of `running` is heard. -/
theorem heard (k : Link) : running.Hears k := ⟨rfl, by cases k <;> rfl, fun _ => rfl⟩

theorem witness_StepTakesFrontCommand : (running.withPending [.startTimebase]).pending = .startTimebase :: [] ∧ running.pending = [] := by
  decide +kernel

theorem witness_EveryCommandAnswers : { running with resetLow := true }.resetLow = true ∧ NoReset .startTimebase :=
  ⟨rfl, fun _ _ _ h => nomatch h⟩

/-- A state with a program of one SILENCE cell, repeated once, in record 2. -/
def programmed (L : Line) : State :=
  { with1 L with programs := State.reset.programs.set 2 ⟨.exclusive, 1, false, [⟨none, 1⟩]⟩ }

/-- A loading line with a message, sending or about to send it. -/
def sending (k : CtxKind) : State :=
  with1 { loading with
    cid := ⟨some ⟨4, [48], 204⟩, true⟩, foreground := some ⟨.active, .exclusive, k⟩, ring := ⟨.cidSend 1 9, 20, 20, 1, some 20⟩ }

/-- A line obeys the law of the on-hook CID when its ring is IDLE and its foreground, if any, is an EXCLUSIVE or program context of another kind. -/
theorem cidLaw_idle (L : Line) (hb : L.background = none) (hr : L.ring.state = .idle)
    (hf : ∀ c, L.foreground = some c → (c.isProgram = true ∨ c.output = .exclusive) ∧ c.isOnHookCid = false) : L.CidLaw := by
  refine ⟨fun c h => ?_, fun c h => (hf c h).1, ?_⟩
  · rw [hb] at h
    cases h
  · rw [hr]
    exact fun c h => (hf c h).2

theorem witness_PartEventsAreTheWholeEvent : ((with1 loading).line 1).CidLaw ∧ (with1 loading).resetLow = false ∧
    ((with1 { loading with run := 39, playout := .running }).loadInput 1).slot.filled = false ∧
    ((with1 loading).line 1).config.starve ≤ min 65535 (39 + 1) ∧ ((with1 loading).line 1).config.window ≤ 199 + 1 ∧
    ((hooked ⟨.onhook 3, 0⟩ true).line 1).hook.state = .onhook 3 ∧ ((hooked ⟨.onhook 3, 0⟩ true).line 1).hookPin = true ∧
    ((hearing .faxCalling ⟨⟨.seeking, none, 0⟩, 99, 0, 0⟩).line 1).closedHalf.cls = .faxCalling ∧
    ((rung ⟨.on 2 1, 20, 20, 2, none⟩).line 1).ring.state = .on 2 1 ∧ ((rung ⟨.on 2 1, 20, 20, 2, none⟩).line 1).ringDue = true ∧
    ((with1 live).line 1).loadDue = false ∧ ((with1 live).line 1).detectorDue = false ∧ ((with1 live).line 1).hookDue = false ∧
    ((with1 live).line 1).captureDue = false := by
  refine ⟨cidLaw_idle _ rfl rfl fun _ h => (nomatch h), ?_⟩
  decide +kernel

theorem witness_PartEventsAreTheWholeEvent_rows : ((programmed { loading with
      background := some ⟨.active, .exclusive, .program 2 ⟨0, 0, some 1, .idle⟩⟩ }).line 1).activeContext =
        some (.background, ⟨.active, .exclusive, .program 2 ⟨0, 0, some 1, .idle⟩⟩) ∧
    (programAt (programmed loading).programs 2).segments.length ≤ 0 + 1 ∧
    ((programAt (programmed loading).programs 2).segments.getD 0 ⟨none, 0⟩).duration ≤ 1 ∧
    ((sending (.offHookCid ⟨0, .alert, 15, none, none⟩)).line 1).foreground =
      some ⟨.active, .exclusive, .offHookCid ⟨0, .alert, 15, none, none⟩⟩ ∧
    ((sending (.onHookCid (some ⟨0, 19, 514, 9213⟩))).line 1).activeContext =
      some (.foreground, ⟨.active, .exclusive, .onHookCid (some ⟨0, 19, 514, 9213⟩)⟩) ∧
    (Fsk.after true ⟨4, [48], 204⟩ 40 ⟨0, 19, 514, 9213⟩).done true ⟨4, [48], 204⟩ = true ∧
    (Fsk.after true ⟨4, [48], 204⟩ 40 ⟨0, 0, 513, 9213⟩).done true ⟨4, [48], 204⟩ = false ∧
    ((with1 { loading with detector := ⟨.reset, 0, 0, 59⟩ }).line 1).detector.playoutAnswer = 59 := by decide +kernel

theorem witness_DeviceResetRestoresEverything : { running with resetLow := true }.resetLow = true ∧ running.resetLow = false ∧
    (after (.readEvents 16) running).cLink.response[1]? = some 0 ∧ (after (.readEvents 16) running).cLink.response.length ≤ 2 := by
  decide +kernel

theorem witness_TimebaseStartsAndAdvances :
    let s := { with1 { live with ring := ⟨.on 1 2, 20, 20, 2, none⟩ } with frame := 40 }
    s.Hears .control ∧ s.resetLow = false ∧ s.timebase = .running ∧ 40 ≤ s.frame ∧ (s.line 1).enabled = true ∧
      (s.line 1).started = true ∧ (s.line 1).ring.state = .on 1 2 ∧ (s.line 0).enabled = false ∧ State.reset.timebase = .held ∧
      ({ running with frame := 39 } : State).frame < 40 :=
  ⟨⟨rfl, rfl, fun h => nomatch h⟩, rfl, rfl, by decide, rfl, rfl, rfl, rfl, rfl, by decide⟩

theorem witness_TimebaseStartsAndAdvances_edges :
    (({ with1 { live with ring := ⟨.on 1 1, 20, 20, 2, none⟩ } with frame := 40 } : State).line 1).ring.state = .on 1 1 ∧
    (({ with1 { live with ring := ⟨.off 1 1, 20, 20, 2, none⟩ } with frame := 40 } : State).line 1).ring.state = .off 1 1 ∧
    (({ with1 { live with ring := ⟨.off 1 2, 20, 20, 2, none⟩ } with frame := 40 } : State).line 1).ring.state = .off 1 2 ∧
    (({ with1 { live with ring := ⟨.cidDelay 1 3 2, 20, 20, 2, none⟩ } with frame := 40 } : State).line 1).ring.state = .cidDelay 1 3 2 ∧
    (({ with1 { live with ring := ⟨.cidDelay 1 3 1, 20, 20, 2, none⟩ } with frame := 40 } : State).line 1).ring.state = .cidDelay 1 3 1 ∧
    (({ with1 { live with ring := ⟨.cidSend 1 3, 20, 20, 2, none⟩ } with frame := 40 } : State).line 1).ring.state = .cidSend 1 3 ∧
    (({ with1 { live with started := false, due := ⟨true, false, false, false, false, false⟩ } with frame := 40 } : State).line 1).due.start =
      true := by decide +kernel

theorem witness_HighwayFrameSendsAndCaptures :
    let s := with1 { live with sent := 39, playFirst := ⟨silence, 40, 1⟩ }
    let u := with1 { live with sent := 38, playFirst := ⟨silence, 40, -1⟩ }
    s.resetLow = false ∧ s.timebase = .running ∧ State.reset.timebase = .held ∧ s.NothingDue ∧ u.NothingDue ∧
      (s.line 0).enabled = false ∧ (s.line 1).enabled = true ∧ (s.line 1).started = true ∧ (s.line 1).fillingHalf.samples = [] ∧
      (s.line 1).playingHalf.slip = 1 ∧ 39 = min (s.line 1).sent 39 ∧ ((s.line 1).sent : Int) + 1 < 40 + (s.line 1).playingHalf.slip ∧
      40 + (u.line 1).playingHalf.slip ≤ ((u.line 1).sent : Int) + 1 ∧ (u.line 1).playingHalf.slip = -1 ∧
      ((with1 live).line 1).playingHalf.slip = 0 :=
  ⟨rfl, rfl, rfl, by unfold State.NothingDue; decide +kernel, by unfold State.NothingDue; decide +kernel, rfl, rfl, rfl, rfl, rfl, rfl, by decide +kernel, by decide +kernel, rfl, rfl⟩

/-- A boundary's ring step, due with the CID delay run out, is overtaken by a load that ends the CID; the frame then counts the cell of OFF. -/
theorem witness_HighwayFrameSendsAndCaptures_left :
    (∀ i, i < 64 → (frameBits 1 2 3 4 ||| 1).getMsbD i = (frameBits 1 2 3 4).getMsbD i) ∧
    (let s := with1 { loading with
      pendingMode := some ⟨.fax, .request⟩, ring := ⟨.cidDelay 1 7 1, 20, 20, 2, some 20⟩, cid := ⟨some ⟨4, [48], 204⟩, true⟩ }
    let t := after (.load 1) s
    s.timebase = .running ∧ (t.line 1).ring.state = .off 1 7 ∧ (t.line 1).due.ring = true ∧
      (t.takingAll.line 1).ring.state = .off 1 6 ∧ (t.takingAll.line 1).due.ring = false) := by
  refine ⟨by decide +kernel, rfl, ?_⟩
  decide +kernel

theorem witness_LineAboveThreeRefused : running.Hears .control ∧ running.Hears .media ∧ 4 ≤ (4 : Byte).toNat ∧
    WellFormed (.loadCid 4 0 1 [0]) = true := ⟨heard _, heard _, by decide, by decide⟩

theorem witness_ConfigureLineReplacesEntries :
    running.Names .control 1 1 ∧ (running.line 1).enabled = false ∧ 8 ≤ (8 : Word16).toNat ∧ 4 ≤ (64 : Byte).toNat ∧ (64 : Byte).toNat ≤ 64 ∧
      (952 : Word16).toNat + (8 : Word16).toNat ≤ 1024 ∧ (960 : Word16).toNat + (64 : Byte).toNat ≤ 1024 ∧
      (952 : Word16).toNat + (8 : Word16).toNat ≤ (960 : Word16).toNat ∧
      (∀ k e, k ≠ (1 : Fin 4) → ((running.line k).playRing = some e ∨ (running.line k).capRing = some e) → False) := by
  refine ⟨⟨heard _, by decide⟩, rfl, by decide, by decide, by decide, by decide, by decide, by decide, ?_⟩
  intro k e _ h
  fin_cases k <;> rcases h with h | h <;> cases h

/-- The four kinds of ring that are refused RANGE, each one step from being taken. -/
theorem witness_ConfigureLineReplacesEntries_range : (7 : Word16).toNat < 8 ∧ 256 < (257 : Word16).toNat ∧ (3 : Byte).toNat < 4 ∧
    64 < (65 : Byte).toNat ∧ 1024 < (1017 : Word16).toNat + (8 : Word16).toNat ∧
    (100 : Word16).toNat < (97 : Word16).toNat + (4 : Byte).toNat ∧ (97 : Word16).toNat < (100 : Word16).toNat + (8 : Word16).toNat ∧
    ((with1 live).line 1).capRing = some ⟨100, 4⟩ ∧ (103 : Word16).toNat < 100 + 4 ∧ 100 < (103 : Word16).toNat + (8 : Word16).toNat ∧
    ((with1 live).line 0).enabled = false := by decide +kernel

theorem witness_ConfigureLineReplacesEntries_enabled : (with1 live).Names .control 1 1 ∧ ((with1 live).line 1).enabled = true :=
  ⟨named1 _ _, rfl⟩

theorem witness_EntriesChangeOnlyByConfigure : (with1 live).Names .control 1 1 ∧ ((with1 live).line 1).enabled = true ∧
    exec (.configureLine 1 0 8 8 4) running = .next (after (.configureLine 1 0 8 8 4) running) ∧ NoReset (.configureLine 1 0 8 8 4) ∧
      ((after (.configureLine 1 0 8 8 4) running).line 1).playRing = some ⟨0, 8⟩ :=
  ⟨named1 _ _, rfl, rfl, fun _ _ _ h => (nomatch h), by decide +kernel⟩

theorem witness_EnableLineSetsUpTimeline :
    let s := with1 { live with enabled := false }
    s.Names .control 1 1 ∧ (s.line 1).enabled = false ∧ s.timebase = .running ∧ (s.line 1).HasRing ⟨16, 8⟩ ∧
      (s.line 1).capRing = some ⟨100, 4⟩ ∧ s.StoreLaw ∧ (State.reset.line 1).playRing = none ∧ State.reset.timebase = .held ∧
      ((with1 live).line 1).enabled = true :=
  ⟨named1 _ _, rfl, rfl, ⟨rfl, by decide⟩, rfl, rfl, rfl, rfl, rfl⟩

theorem witness_DisableLineGivesUpTimeline : (with1 live).Names .control 1 1 ∧ ((with1 live).line 1).enabled = true ∧
    ((with1 live).line 1).HasRing ⟨16, 8⟩ ∧ (with1 live).StoreLaw ∧ (running.line 1).enabled = false :=
  ⟨named1 _ _, rfl, ⟨rfl, by decide⟩, rfl, rfl⟩

theorem witness_ModeAndSupervisionStored : (with1 live).Names .control 1 1 ∧ ((with1 live).line 1).enabled = true ∧
    ((with1 live).line 1).mode = .voice ∧ 2 ≤ (2 : Byte).toNat ∧ ((with1 { live with mode := .fax }).line 1).mode = .fax ∧
    (running.line 1).enabled = false ∧ (1 : Byte).toNat < 2 ∧ 4 ≤ (4 : Byte).toNat ∧ running.Hears .control ∧
    exec .startTimebase State.reset = .next (after .startTimebase State.reset) ∧ NoReset .startTimebase :=
  ⟨named1 _ _, rfl, rfl, by decide, rfl, rfl, by decide, by decide, heard _, rfl, fun _ _ _ h => (nomatch h)⟩

theorem witness_WriteTonesWritesEntries : running.Hears .control ∧ (31 : Byte).toNat < 32 ∧ 32 ≤ (32 : Byte).toNat ∧ (32 : Byte) ≠ 0xFF ∧
    96 < (97 : Byte).toNat ∧ ([1, 2] : List Word16).length + (List.replicate 94 (0 : Word16)).length ≤ 96 :=
  ⟨heard _, by decide, by decide, by decide, by decide, by decide⟩

theorem witness_WriteProgramReplacesFreeRecord :
    running.Hears .control ∧ (15 : Byte).toNat ≤ 15 ∧ (2 : Byte).toNat ≤ 8 ∧ ([⟨31, 1⟩, ⟨0xFF, 4000⟩] : List RawSegment).length = (2 : Byte).toNat ∧
      (∀ g ∈ ([⟨31, 1⟩, ⟨0xFF, 4000⟩] : List RawSegment),
        (g.tone.toNat < 32 ∨ g.tone = 0xFF) ∧ 1 ≤ g.duration.toNat ∧ g.duration.toNat ≤ 4000) ∧
      (∀ l, (running.line l).refersTo 15 = false) ∧
      ((with1 { live with background := some (program .active 15 ⟨0, 0, none, .idle⟩) }).line 1).refersTo 15 = true ∧
      exec .startTimebase State.reset = .next (after .startTimebase State.reset) ∧ NoReset .startTimebase :=
  ⟨heard _, by decide, by decide, by decide, by decide, by decide +kernel, by decide +kernel, rfl, fun _ _ _ h => (nomatch h)⟩

theorem witness_SignalRequestsCreateAndRemoveContexts : (programmed live).Names .control 1 1 ∧ (2 : Byte).toNat ≤ 15 ∧
    (programAt (programmed live).programs (2 : Byte).toNat).segments ≠ [] ∧ ((programmed live).line 1).enabled = true ∧
    ((programmed live).line 1).mode = .voice ∧ (programmed live).Room 1 ∧ ((programmed live).line 1).foreground = none ∧
    ((programmed live).line 1).ring.holdsCid = false ∧
    ((programmed { live with foreground := some (program .active 2 ⟨0, 0, none, .idle⟩) }).line 1).foreground ≠ none :=
  ⟨⟨⟨rfl, rfl, fun h => nomatch h⟩, by decide⟩, by decide, by decide, rfl, rfl, ⟨rfl, by decide⟩, rfl, rfl, by decide⟩

theorem witness_SignalRequestsCreateAndRemoveContexts_stop :
    let s := with1 { live with
      background := some (program .suspended 2 ⟨0, 0, none, .idle⟩)
      foreground := some ⟨.active, .exclusive, .offHookCid ⟨3, .alert, 0, none, none⟩⟩ }
    let u := with1 { live with foreground := some (program .active 2 ⟨0, 0, none, .idle⟩) }
    let v := with1 { live with foreground := some ⟨.active, .exclusive, .onHookCid none⟩ }
    s.Names .control 1 1 ∧ s.Room 1 ∧ (s.line 1).background = some ⟨.suspended, .exclusive, .program 2 ⟨0, 0, none, .idle⟩⟩ ∧
      (s.line 1).foreground = some ⟨.active, .exclusive, .offHookCid ⟨3, .alert, 0, none, none⟩⟩ ∧
      (u.line 1).foreground = some ⟨.active, .exclusive, .program 2 ⟨0, 0, none, .idle⟩⟩ ∧
      (v.line 1).foreground = some ⟨.active, .exclusive, .onHookCid none⟩ ∧ (u.line 1).background = none ∧
      (running.line 1).foreground = none :=
  ⟨named1 _ _, ⟨rfl, by decide⟩, rfl, rfl, rfl, rfl, rfl, rfl⟩

/-- The line's load, due with no pending mode. -/
theorem loadReady (L : Line) (h : L.loadDue = true) (hp : L.pendingMode = none) : (with1 L).LoadReady 1 :=
  ⟨rfl, by rw [with1, State.line_setLine_same]; exact h, by rw [with1, State.line_setLine_same]; exact hp⟩

theorem witness_ProgramContextsRenderAndComplete :
    let run : ProgramRun := ⟨0, 1, some 1, .idle⟩
    let s := programmed { loading with foreground := some (program .active 2 run) }
    let u := programmed { loading with background := some (program .active 2 { run with cellsLeft := 0 }) }
    (s.LoadReady 1 ∧ s.Room 1) ∧ run.cellsLeft = 1 ∧ run.repeats = some 1 ∧
      (programAt s.programs 2).segments.length = run.segment + 1 ∧ (s.line 1).detector.playoutAnswer ≠ 59 ∧
      (s.line 1).foreground = some ⟨.active, .exclusive, .program 2 run⟩ ∧ (u.line 1).foreground = none ∧
      (u.line 1).background = some ⟨.active, .exclusive, .program 2 { run with cellsLeft := 0 }⟩ ∧
      ((programAt u.programs 2).segments.getD 0 ⟨none, 0⟩).duration = 1 :=
  ⟨⟨⟨rfl, rfl, rfl⟩, ⟨rfl, by decide⟩⟩, rfl, rfl, rfl, by decide, rfl, rfl, rfl, rfl⟩

theorem witness_ProgramContextsRenderAndComplete_goesOn :
    let run : ProgramRun := ⟨0, 2, none, .idle⟩
    let s := programmed { loading with foreground := some (program .active 2 run) }
    s.LoadReady 1 ∧ s.Room 1 ∧ 2 ≤ run.cellsLeft ∧ (s.line 1).foreground = some ⟨.active, .exclusive, .program 2 run⟩ ∧
      (programAt s.programs 2).segments.length ≤ run.segment + 1 ∧ run.repeats = none ∧ ({ run with repeats := some 2 }).repeats = some (0 + 2) :=
  ⟨⟨rfl, rfl, rfl⟩, ⟨rfl, by decide⟩, by decide, rfl, by decide, rfl, rfl⟩

theorem witness_TonesAndFskAreSampled : 3999 ≤ 3999 ∧ 127 ≤ 127 ∧ 39 < 40 ∧ 3 * 3466 < 20 * fskBits true ⟨4, [48], 204⟩ ∧
    3 * 0 < 20 * fskBits false ⟨4, [], 252⟩ ∧ 20 * fskBits false ⟨4, [], 252⟩ ≤ 3 * 734 ∧ 734 < 735 ∧
    ((4 : Byte) :: BitVec.ofNat 8 1 :: ([48] ++ [(203 : Byte)]))[3]? = some 203 := by decide +kernel

theorem witness_SineTermsRoundTheSine : 16384 ≤ 16384 := by decide

/-- A live line qualified OFF-HOOK with a message in its CID buffer. -/
def called : Line := { live with hook := ⟨.offhook, 0⟩, cid := ⟨some ⟨4, [48], 204⟩, false⟩ }

theorem witness_CallerIdRequestsLoadAndAlert :
    (with1 live).Names .control 1 1 ∧ (60 : Byte).toNat ≤ 60 ∧ (List.replicate 60 (1 : Byte)).length = (60 : Byte).toNat ∧
      ((with1 live).line 1).enabled = true ∧ ((with1 live).line 1).cid.inUse = false ∧ (31 : Byte).toNat ≤ 31 ∧
      ((with1 live).line 1).offHook = false ∧ ((with1 called).line 1).offHook = true ∧ ((with1 called).line 1).mode = .voice ∧
      ((with1 called).line 1).cid.message ≠ none ∧ ((with1 called).line 1).foreground = none ∧
      ((with1 { called with mode := .fax }).line 1).mode = .fax ∧
      ((with1 { called with cid := ⟨none, false⟩ }).line 1).cid.message = none ∧
      ((with1 { called with cid := ⟨none, true⟩ }).line 1).cid.inUse = true :=
  ⟨named1 _ _, by decide, by decide, rfl, rfl, by decide, rfl, rfl, rfl, by decide, rfl, rfl, rfl, rfl⟩

theorem witness_CallerIdGoesThroughItsPhases :
    (∀ k, (sending k).LoadReady 1 ∧ (sending k).Room 2 ∧ ((sending k).line 1).detector.playoutAnswer ≠ 59 ∧
      ((sending k).line 1).foreground = some ⟨.active, .exclusive, k⟩ ∧ ((sending k).line 1).cid.message = some ⟨4, [48], 204⟩ ∧
      ((sending k).line 1).ring.state = .cidSend 1 9) ∧
    80 + 10 * ([48].length + 3) ≤ 114 + 6 ∧ 480 + 10 * ([48].length + 3) ≤ 514 + 6 ∧ (19 : Nat) < 20 ∧
    (Fsk.after false ⟨4, [48], 204⟩ 40 ⟨0, 0, 0, 9213⟩).done false ⟨4, [48], 204⟩ = false ∧
    (Fsk.after true ⟨4, [48], 204⟩ 40 ⟨0, 0, 513, 9213⟩).done true ⟨4, [48], 204⟩ = false :=
  ⟨fun _ => ⟨⟨rfl, rfl, rfl⟩, ⟨rfl, Nat.le_of_ble_eq_true rfl⟩, fun h => absurd h (by decide : (0 : Nat) ≠ 59), rfl, rfl, rfl⟩,
    by decide, by decide, by decide, by decide +kernel, by decide +kernel⟩

theorem witness_RingStartAndStop :
    let s := with1 { live with cid := ⟨some ⟨4, [48], 204⟩, false⟩ }
    let u := with1 { live with ring := ⟨.on 2 7, 20, 20, 0, none⟩ }
    s.Names .control 1 1 ∧ 20 ≤ (20 : Word16).toNat ∧ (4000 : Word16).toNat ≤ 4000 ∧ (8000 : Word16).toNat ≤ 8000 ∧
      (s.line 1).enabled = true ∧ (s.line 1).offHook = false ∧ (s.line 1).ring.state = .idle ∧ (400 : Word16).toNat ≤ 400 ∧
      (s.line 1).cid.message ≠ none ∧ (s.line 1).cid.inUse = false ∧ (s.line 1).mode = .voice ∧ (s.line 1).foreground = none ∧
      (u.line 1).ring.state ≠ .idle ∧ (u.line 1).ring.holdsCid = false ∧ u.Room 1 ∧ ((with1 called).line 1).offHook = true :=
  ⟨named1 _ _, by decide, by decide, by decide, rfl, rfl, rfl, by decide, by decide, rfl, rfl, rfl, by decide, rfl, ⟨rfl, by decide⟩, rfl⟩

theorem witness_RingStartAndStop_cid :
    let v := with1 { live with ring := ⟨.cidDelay 1 20 3, 20, 20, 0, some 20⟩ }
    let w := with1 { live with ring := ⟨.on 1 7, 20, 20, 0, some 20⟩ }
    let x := sending (.onHookCid none)
    v.Names .control 1 1 ∧ (v.line 1).ring.state = .cidDelay 1 20 3 ∧ (v.line 1).foreground = none ∧ v.Room 2 ∧
      (w.line 1).ring.state = .on 1 7 ∧ (w.line 1).ring.cid ≠ none ∧ x.Names .control 1 1 ∧ x.Room 2 ∧
      (x.line 1).ring.state = .cidSend 1 9 ∧ (x.line 1).foreground = some ⟨.active, .exclusive, .onHookCid none⟩ :=
  ⟨named1 _ _, rfl, rfl, ⟨rfl, by decide⟩, rfl, by decide, named1 _ _, ⟨rfl, by decide⟩, rfl, rfl⟩

theorem witness_RingCadenceTurns :
    let s := rung ⟨.on 1 1, 20, 30, 2, none⟩
    s.resetLow = false ∧ (s.line 1).enabled = true ∧ (s.line 1).started = true ∧ (s.line 1).due.ring = true ∧ s.Room 1 ∧
      (s.line 1).ring.state = .on 1 1 ∧ (s.line 1).ring.cid = none ∧ 1 < (s.line 1).ring.bursts ∧
      ((rung ⟨.on 2 1, 20, 30, 2, none⟩).line 1).ring.bursts = 2 ∧ ((rung ⟨.on 1 1, 20, 30, 2, some 20⟩).line 1).ring.cid = some 20 ∧
      ((rung ⟨.off 1 1, 20, 30, 2, none⟩).line 1).ring.state = .off 1 1 ∧
      ((rung ⟨.cidDelay 1 20 1, 20, 30, 2, some 20⟩).line 1).ring.state = .cidDelay 1 20 1 :=
  ⟨rfl, rfl, rfl, rfl, ⟨rfl, by decide⟩, rfl, rfl, by decide, rfl, rfl, rfl, rfl⟩

/-- An open deposit of one cell for line 1 with `n` samples held. -/
def opened (n : Nat) (broken : Bool) : Deposit :=
  ⟨⟨false, true, false, false⟩, 2, 40, 1, .replace, false, 0, false, List.replicate n 9, broken⟩

theorem witness_DepositRequestsFillTheBuffer :
    let s := running.setDeposit (some (opened 38 false))
    s.Hears .media ∧ (3 : Byte).toNat = (3 : Fin 4).val ∧ 1 ≤ (1 : Byte).toNat ∧ (15 : Byte).toNat ≤ 15 ∧ 4 ≤ (4 : Byte).toNat ∧
      (0 : Byte).toNat = 0 ∧ 15 < (16 : Byte).toNat ∧ 1 ≤ (2 : Word16).toNat ∧ (320 : Word16).toNat ≤ 320 ∧
      [1, 2].length = (2 : Word16).toNat ∧ s.deposit = some (opened 38 false) ∧
      (opened 38 false).samples.length + [1, 2].length ≤ 40 * (opened 38 false).cells ∧
      40 * (opened 38 false).cells < (opened 38 false).samples.length + [1, 2, 3].length ∧ (0 : Word16).toNat = 0 ∧
      320 < (321 : Word16).toNat ∧ running.deposit = none ∧ (opened 3 true).broken = true ∧ (opened 39 false).broken = false ∧
      (opened 39 false).samples.length < 40 * (opened 39 false).cells :=
  ⟨⟨rfl, rfl, fun _ => rfl⟩, by decide, by decide, by decide, by decide, by decide, by decide, by decide, by decide, by decide, rfl,
    by decide, by decide, by decide, by decide, rfl, rfl, rfl, by decide⟩

theorem witness_AbandonDepositCloses : running.Hears .media ∧ running.deposit = none ∧
    (running.setDeposit (some (opened 3 true))).deposit = some (opened 3 true) := ⟨heard _, rfl, rfl⟩

/-- A live line with source 2 anchored at offset 0, so that the cell of time 400 + 40·j stands j slots ahead of hs. -/
def anchored : State := with1 { live with anchors := live.anchors.set 2 (.anchored 0), playout := .running }

/-- The same with the last slot of the ring holding source 2. -/
def holding : State := anchored.setStore [(21, ⟨silence, .slot ⟨.filled, (Four.all false).set 2 true, ⟨true, false⟩⟩⟩)]

theorem holding_store : holding.StoreLaw := by
  unfold State.StoreLaw
  decide +kernel

/-- A fill of line 1 by source 2 that the command below makes: the first cell at the time given, gain 0. -/
def fillWrite (time : Word32) (mix : Mix) : Write := ⟨.fill, 2, time, mix, false, [(0, silence.map (gainStep 0))]⟩

theorem sends_fill (s : State) (time : Word32) (h : s.fillPattern = silence) :
    s.Sends (.fillCells 2 2 time 0x01 0 1) 1 (fillWrite time .replace) := by
  refine .inr ⟨2, 2, 0x01, 0, 0, 2, rfl, by decide, by decide, by decide, ?_⟩
  rw [h]
  rfl

theorem witness_CommitAnchorsIdleLine :
    let s := (with1 live).setDeposit (some (opened 40 false))
    s.Hears .media ∧ s.StoreLaw ∧ s.deposit = some (opened 40 false) ∧ (opened 40 false).mask = (Four.all false).set 1 true ∧
      (opened 40 false).broken = false ∧ (opened 40 false).samples.length = 40 * (opened 40 false).cells ∧ (s.line 1).enabled = true ∧
      (s.line 1).playout = .idle ∧
      (s.line 1).anchors.get 2 = .unanchored ∧ (s.line 1).HasRing ⟨16, 8⟩ ∧ (s.line 1).hs < 8 ∧
      (∀ i, i < 8 → s.store.read (16 + i) = StoreCell.reset) ∧ 1 ≤ (s.line 1).depth ∧ (s.line 1).depth + 1 ≤ 8 ∧
      (s.line 1).stats.InRange ∧ (2 : Fin 4) ≠ (s.line 1).config.lead :=
  ⟨⟨rfl, rfl, fun _ => rfl⟩, rfl, rfl, rfl, rfl, by decide +kernel, rfl, rfl, rfl, ⟨rfl, by decide⟩, by decide +kernel, fun _ _ => rfl,
    by decide +kernel, by decide +kernel, by unfold Stats.InRange; decide +kernel, by decide +kernel⟩

theorem witness_FillWritesOrFindsDuplicate :
    anchored.Hears .media ∧ anchored.StoreLaw ∧ (2 : Byte).toNat = 2 ^ (1 : Fin 4).val ∧ (2 : Byte).toNat = (2 : Fin 4).val ∧
      (anchored.line 1).enabled = true ∧ (anchored.line 1).stats.InRange ∧ (anchored.line 1).anchors.get 2 = .anchored 0 ∧
      (anchored.line 1).HasRing ⟨16, 8⟩ ∧ 7 < 8 ∧ ((680 : Word32) + 0 - (anchored.line 1).horizon).toInt = 40 * (7 : Nat) ∧
      (anchored.store.read (16 + ((anchored.line 1).hs + 7) % 8)).filled = false ∧
      holding.StoreLaw ∧ (holding.store.read (16 + ((holding.line 1).hs + 7) % 8)).filled = true ∧
      (holding.store.read (16 + ((holding.line 1).hs + 7) % 8)).slot.sources.get 2 = true :=
  ⟨⟨rfl, rfl, fun _ => rfl⟩, rfl, by decide, by decide, rfl, by unfold Stats.InRange; decide +kernel, rfl, ⟨rfl, by decide⟩, by decide,
    by decide +kernel, by decide +kernel, holding_store, by decide +kernel, by decide +kernel⟩

theorem witness_WriteSortsAndMixesCells :
    holding.Hears .media ∧ holding.StoreLaw ∧ (∀ time, holding.Sends (.fillCells 2 2 time 0x01 0 1) 1 (fillWrite time .replace)) ∧
      (holding.line 1).enabled = true ∧ (holding.line 1).HasRing ⟨16, 8⟩ ∧ (holding.line 1).hs < 8 ∧
      ¬(holding.line 1).MustAnchor (fillWrite 680 .replace) ∧ (holding.line 1).anchors.get 2 = .anchored 0 ∧
      ((401 : Word32) + 0 - (holding.line 1).horizon).toInt % 40 ≠ 0 ∧ ((360 : Word32) + 0 - (holding.line 1).horizon).toInt = -40 ∧
      ((680 : Word32) + 0 - (holding.line 1).horizon).toInt = 280 ∧ ((720 : Word32) + 0 - (holding.line 1).horizon).toInt = 40 * 8 ∧
      isDuplicate (fillWrite 680 .add) (holding.store.read (16 + ((holding.line 1).hs + 7) % 8)) = true :=
  ⟨⟨rfl, rfl, fun _ => rfl⟩, holding_store, fun _ => sends_fill _ _ rfl, rfl, ⟨rfl, by decide⟩, by decide +kernel,
    fun h => h.elim (fun h => nomatch h) (fun h => h 0 rfl), rfl, by decide +kernel, by decide +kernel, by decide +kernel, by decide +kernel,
    by decide +kernel⟩

theorem witness_WriteSortsAndMixesCells_anchors :
    let s := (with1 live).setDeposit (some (opened 40 false))
    s.Sends (.commitDeposit 1) 1 ⟨.media, 2, 40, .replace, false, [(0, transform false 0 (List.replicate 40 9))]⟩ ∧
      (s.line 1).MustAnchor ⟨.media, 2, 40, .replace, false, [(0, transform false 0 (List.replicate 40 9))]⟩ ∧ (s.line 1).depth ≤ 255 ∧
      ((40 : Word32) + ((s.line 1).horizon + BitVec.ofNat 32 (40 * (s.line 1).depth) - 40) - (s.line 1).horizon).toInt % 40 = 0 ∧
      (running.line 1).enabled = false :=
  ⟨.inl ⟨opened 40 false, 0, rfl, rfl, rfl, ⟨rfl, by decide +kernel, by decide, by decide⟩, rfl⟩, .inr fun _ h => (nomatch h),
    by decide +kernel, by decide +kernel, rfl⟩

/-- A commit to lines 1 and 2 with the write to line 2 left. -/
def halfway : State :=
  { with1 live with job := some ⟨⟨.media, 2, 40, .replace, false, [(0, List.replicate 40 9)]⟩, [2], [0, 0, 0, 0, 0, 120]⟩ }

theorem witness_LinesOfAMaskAreWrittenOneByOne :
    let d : Deposit := ⟨⟨false, true, true, false⟩, 2, 40, 1, .replace, false, 0, false, List.replicate 40 9, false⟩
    let s := (with1 live).setDeposit (some d)
    s.Hears .media ∧ s.deposit = some d ∧ d.Complete ∧ d.mask.get 2 = true ∧ 1 ≤ (15 : Byte).toNat ∧ (15 : Byte).toNat ≤ 15 ∧
      (0x0F : Byte).toNat % 16 ≠ 0 ∧ exec (.commitDeposit 1) s = .next (after (.commitDeposit 1) s) ∧
      (after (.commitDeposit 1) s).job ≠ none ∧
      exec (.fillCells 6 2 0 1 0 1) s = .next (after (.fillCells 6 2 0 1 0 1) s) ∧ (after (.fillCells 6 2 0 1 0 1) s).job ≠ none :=
  ⟨⟨rfl, rfl, fun _ => rfl⟩, rfl, ⟨rfl, by decide +kernel, by decide, by decide⟩, rfl, by decide, by decide, by decide, rfl,
    by decide +kernel, rfl, by decide +kernel⟩

theorem witness_LinesOfAMaskAreWrittenOneByOne_left :
    halfway.resetLow = false ∧ halfway.mLink.ignoring = false ∧
      halfway.job = some ⟨⟨.media, 2, 40, .replace, false, [(0, List.replicate 40 9)]⟩, [2], [0, 0, 0, 0, 0, 120]⟩ ∧
      ({ halfway with
        job := none, deposit := some ⟨(Four.all false).set 2 true, 2, 40, 1, .replace, false, 0, false, List.replicate 40 9, false⟩ } :
          State).Sends (.commitDeposit 1) 2 ⟨.media, 2, 40, .replace, false, [(0, List.replicate 40 9)]⟩ ∧
      frameOf (.setPlayout 0 ⟨8, 24, 40, 20, 40, 160, 200, 256, 0x0E, 1, 0, 2⟩) =
        some (.media, 0x46 :: [0, 8, 24, 40, 20, 0, 40, 0, 160, 0, 200, 1, 0, 0x0E, 1, 0, 2]) ∧
      WellFormed (.setPlayout 0 ⟨8, 24, 40, 20, 40, 160, 200, 256, 0x0E, 1, 0, 2⟩) = true :=
  ⟨rfl, rfl, rfl, .inl ⟨_, 0, rfl, rfl, rfl, ⟨rfl, by decide +kernel, by decide, by decide⟩, by decide +kernel⟩, by decide, by decide⟩

theorem witness_FillPatternChangesOnlyByItsLoad : running.Hears .media ∧ (40 : Word16).toNat = 40 ∧
    (List.replicate 40 (3 : Sample)).length = 40 ∧ (41 : Word16).toNat ≠ 40 ∧
    exec .startTimebase State.reset = .next (after .startTimebase State.reset) ∧ NoReset .startTimebase :=
  ⟨heard _, by decide, by decide, by decide, rfl, fun _ _ _ h => (nomatch h)⟩

theorem witness_GainStepRoundsHalfUp : 1 ≤ 8 ∧ 8 ≤ 8 ∧ 1 ≤ 3 ∧ 3 ≤ 3 := by decide

theorem witness_SetPlayoutClampsValues : (with1 live).Names .media 1 1 ∧ ((with1 live).line 1).playRing = some ⟨16, 8⟩ ∧
    ((with1 live).line 1).capRing = some ⟨100, 4⟩ ∧ (running.line 1).playRing = none :=
  ⟨named1 _ _, rfl, rfl, rfl⟩

theorem witness_RealignAndStatisticsRequests : (with1 live).Names .media 1 1 ∧ ((with1 live).line 1).enabled = true ∧
    (0 : Byte).getLsbD 0 = false ∧ (1 : Byte).getLsbD 0 = true ∧ ((with1 live).line 1).HasRing ⟨16, 8⟩ ∧ (with1 live).StoreLaw ∧
    (running.line 1).enabled = false :=
  ⟨named1 _ _, rfl, rfl, rfl, ⟨rfl, by decide⟩, rfl, rfl⟩

theorem witness_LoadAdvancesHorizon : (with1 loading).resetLow = false ∧ ((with1 loading).line 1).loadDue = true ∧
    (with1 loading).StoreLaw := ⟨rfl, rfl, rfl⟩

theorem witness_LoadAppliesPendingMode :
    let L := { loading with pendingMode := some ⟨.fax, .auto⟩, detector := ⟨⟨.held 5 9 2 false, none, 0⟩, 0, 0, 59⟩ }
    let s := with1 L
    let u := with1 { L with ring := ⟨.on 1 7, 20, 20, 1, some 20⟩, cid := ⟨some ⟨4, [48], 204⟩, true⟩ }
    let v := with1 { L with ring := ⟨.cidDelay 1 7 3, 20, 20, 1, some 20⟩, cid := ⟨some ⟨4, [48], 204⟩, true⟩ }
    s.resetLow = false ∧ (s.line 1).loadDue = true ∧ (s.line 1).pendingMode = some ⟨.fax, .auto⟩ ∧ (s.line 1).CidLaw ∧ s.Room 5 ∧
      (s.line 1).ring.holdsCid = false ∧ (s.line 1).foreground = none ∧
      (u.line 1).ring.state = .on 1 7 ∧ (u.line 1).ring.cid ≠ none ∧ (u.line 1).CidLaw ∧
      (v.line 1).ring.state = .cidDelay 1 7 3 ∧ (v.line 1).ring.bursts = 1 ∧ (v.line 1).CidLaw :=
  ⟨rfl, rfl, rfl, cidLaw_idle _ rfl rfl fun _ h => (nomatch h), ⟨rfl, by decide⟩, rfl, rfl, rfl, by decide,
    ⟨fun _ h => (nomatch h), fun _ h => (nomatch h), by decide, fun _ h => (nomatch h), fun _ _ => rfl⟩, rfl, rfl,
    ⟨fun _ h => (nomatch h), fun _ h => (nomatch h), by decide, rfl⟩⟩

theorem witness_LoadAppliesPendingMode_foreground :
    let s := with1 { (sending (.onHookCid none)).line 1 with pendingMode := some ⟨.fax, .request⟩ }
    let u := with1 { loading with
      pendingMode := some ⟨.voice, .request⟩, foreground := some (program .active 2 ⟨0, 0, none, .idle⟩)
      background := some (program .suspended 2 ⟨0, 0, none, .idle⟩) }
    let v := with1 { loading with
      pendingMode := some ⟨.fax, .request⟩, foreground := some ⟨.active, .exclusive, .offHookCid ⟨0, .alert, 0, none, none⟩⟩ }
    (s.line 1).ring.state = .cidSend 1 9 ∧ (s.line 1).pendingMode = some ⟨.fax, .request⟩ ∧ (s.line 1).CidLaw ∧ s.Room 5 ∧
      (u.line 1).foreground = some ⟨.active, .exclusive, .program 2 ⟨0, 0, none, .idle⟩⟩ ∧ (u.line 1).CidLaw ∧
      (v.line 1).foreground = some ⟨.active, .exclusive, .offHookCid ⟨0, .alert, 0, none, none⟩⟩ ∧ (v.line 1).CidLaw := by
  refine ⟨rfl, rfl, ⟨fun _ h => (nomatch h), ?_, by decide, ⟨_, rfl, rfl⟩⟩, ⟨rfl, by decide⟩, rfl, ⟨?_, ?_, ?_⟩, rfl,
    cidLaw_idle _ rfl rfl ?_⟩
  · intro c h
    cases h
    exact .inr rfl
  · intro c h
    cases h
    rfl
  · intro c h
    cases h
    exact .inl rfl
  · intro c h
    cases h
    rfl
  · intro c h
    cases h
    exact ⟨.inr rfl, rfl⟩

theorem witness_EmptySlotConceals :
    let L := { loading with repeatBuffer := some silence, run := 3 }
    (with1 L).LoadReady 1 ∧ ((with1 L).line 1).NoContexts ∧ ((with1 L).loadInput 1).slot.filled = false ∧
      ((with1 L).line 1).run < 4 ∧ ((with1 L).line 1).playout = .running ∧ ((with1 L).line 1).mode = .voice ∧
      ((with1 L).line 1).repeatBuffer = some silence ∧ ((with1 L).line 1).stats.concealed ≤ 65535 ∧
      ((with1 { L with run := 65535 }).line 1).run ≤ 65535 ∧
      ((with1 { L with run := 4 }).line 1).run = 4 ∧ ((with1 { L with playout := .idle }).line 1).playout = .idle ∧
      ((with1 { L with playout := .starved }).line 1).playout = .starved ∧ ((with1 { L with mode := .fax }).line 1).mode = .fax :=
  ⟨loadReady _ rfl rfl, ⟨rfl, rfl⟩, rfl, by decide, rfl, rfl, rfl, by decide, by decide, rfl, rfl, rfl, rfl⟩

/-- The slot at hs of a loading line holding a cell of source 2. -/
def filledAtHs (L : Line) (x : Sample) : State :=
  (with1 L).setStore [(22, ⟨List.replicate 40 x, .slot ⟨.filled, (Four.all false).set 2 true, ⟨true, false⟩⟩⟩)]

/-- A cell of 256 is quiet and a cell of 257 is not, at the default quiet level. -/
theorem quiet256 : ∀ x ∈ List.replicate 40 (256 : Sample), x.toInt.natAbs ≤ PlayoutConfig.reset.quiet := by
  intro x hx
  rw [List.eq_of_mem_replicate hx]
  decide

theorem loud257 : ∃ x ∈ List.replicate 40 (257 : Sample), PlayoutConfig.reset.quiet < x.toInt.natAbs :=
  ⟨257, .head _, by decide⟩

theorem witness_FilledSlotPlaysAndSlips :
    let s := filledAtHs { loading with pendingSlip := 3 } 256
    let u := filledAtHs { loading with pendingSlip := -3, patience := 20 } 257
    let v := filledAtHs { loading with pendingSlip := 1, patience := 19 } 257
    (s.resetLow = false ∧ (s.line 1).loadDue = true ∧ (s.line 1).pendingMode = none) ∧
      ((s.line 1).background = none ∧ (s.line 1).foreground = none) ∧ (s.loadInput 1).slot.filled = true ∧
      0 < (s.line 1).pendingSlip ∧
      (∀ x ∈ (s.loadInput 1).slot.samples, x.toInt.natAbs ≤ (s.line 1).config.quiet) ∧ (u.line 1).pendingSlip < 0 ∧
      (u.line 1).config.patience ≤ (u.line 1).patience ∧ (v.line 1).patience < (v.line 1).config.patience ∧
      (∃ x ∈ (v.loadInput 1).slot.samples, (v.line 1).config.quiet < x.toInt.natAbs) ∧
      (s.loadInput 1).slot.slot.kinds.media = true ∧ (s.line 1).stats.slipsPlus < 65535 :=
  ⟨⟨rfl, rfl, rfl⟩, ⟨rfl, rfl⟩, rfl, by decide +kernel, quiet256, by decide +kernel, by decide +kernel, by decide +kernel,
    loud257, rfl, by decide +kernel⟩

theorem witness_LoadStarvesAndClosesWindow :
    let L := { loading with run := 39, window := ⟨199, some 40, none⟩ }
    (with1 L).LoadReady 1 ∧ ((with1 L).loadInput 1).slot.filled = false ∧ ((with1 L).line 1).playout = .running ∧
      ((with1 L).line 1).config.starve ≤ ((with1 L).line 1).run + 1 ∧
      ((with1 L).line 1).config.window ≤ ((with1 L).line 1).window.counter + 1 ∧ ((with1 L).line 1).window.minimum = some 40 ∧
      (((with1 L).line 1).config.lowWater : Int) ≤ 40 ∧ ((with1 L).line 1).pendingSlip = 0 ∧ ((with1 L).line 1).config.autoSlip = true ∧
      ((with1 { L with pendingSlip := 40 }).line 1).pendingSlip = 40 ∧ ((with1 { L with pendingSlip := -40 }).line 1).pendingSlip = -40 ∧
      (39 : Int) < ((with1 L).line 1).config.lowWater ∧ (((with1 L).line 1).config.highWater : Int) < 161 :=
  ⟨loadReady _ rfl rfl, rfl, rfl, by decide, by decide, rfl, by decide, rfl, rfl, rfl, rfl, by decide, by decide⟩

theorem witness_CaptureStoreWritesRecord :
    let s := with1 { loading with capWrite := 3, capRead := 3, unread := 4 }
    let u := ({ with1 { loading with unread := 1 } with mLink := { LinkState.reset with irq := ⟨.pulse, 4, 0, 0⟩ } } : State)
    s.resetLow = false ∧ (s.line 1).captureDue = true ∧ s.StoreLaw ∧ (s.line 1).capRing = some ⟨100, 4⟩ ∧ 100 + 4 ≤ 1024 ∧
      (s.line 1).capWrite < 4 ∧ 4 ≤ (s.line 1).unread ∧ (u.line 1).unread + 1 = (u.line 1).capThreshold ∧
      u.mLink.irq.mode = .pulse ∧ (u.line 1).due.hook = true :=
  ⟨rfl, rfl, rfl, rfl, by decide, by decide, by decide, rfl, rfl, rfl⟩

theorem witness_CaptureReadReturnsOldest : (with1 { live with unread := 3 }).Names .media 1 1 ∧
    ((with1 { live with unread := 3 }).line 1).capRing = some ⟨100, 4⟩ ∧ (0 : Byte).toNat = 0 ∧ 8 < (9 : Byte).toNat ∧
    1 ≤ (8 : Byte).toNat ∧ (8 : Byte).toNat ≤ 8 ∧ ((with1 live).line 1).enabled = true ∧
    ((with1 { live with enabled := false }).line 1).enabled = false :=
  ⟨named1 _ _, rfl, rfl, by decide, by decide, by decide, rfl, rfl⟩

theorem witness_HookClassifierQualifies :
    let s := hooked ⟨.onhook 3, 0⟩ true
    s.resetLow = false ∧ (s.line 1).hookDue = true ∧ s.Room 3 ∧ (s.line 1).hook.state = .onhook 3 ∧ (s.line 1).hookPin = true ∧
      (s.line 1).ring.holdsCid = false ∧ (s.line 1).foreground = none ∧ (s.line 1).background = none ∧
      ((hooked ⟨.onhook 2, 0⟩ true).line 1).hook.state = .onhook 2 ∧ ((hooked ⟨.offhook, 0⟩ false).line 1).hook.state = .offhook ∧
      ((hooked ⟨.dialing 58, 1⟩ true).line 1).hook.state = .dialing 58 ∧ ((hooked ⟨.dialing 59, 10⟩ true).line 1).hook = ⟨.dialing 59, 10⟩ ∧
      ((hooked ⟨.dialing 59, 11⟩ true).line 1).hook = ⟨.dialing 59, 11⟩ :=
  ⟨rfl, rfl, ⟨rfl, by decide⟩, rfl, rfl, rfl, rfl, rfl, rfl, rfl, rfl, rfl, rfl⟩

theorem witness_HookClassifierQualifies_break :
    ((hooked ⟨.brk 180 .offhook, 0⟩ false).line 1).hook.state = .brk 180 .offhook ∧
      ((hooked ⟨.brk 179 .offhook, 0⟩ false).line 1).hook.state = .brk 179 .offhook ∧
      ((hooked ⟨.brk 3 (.dialing 7), 2⟩ true).line 1).hook = ⟨.brk 3 (.dialing 7), 2⟩ ∧
      ((hooked ⟨.brk 4 .offhook, 255⟩ true).line 1).hook = ⟨.brk 4 .offhook, 255⟩ ∧
      ((hooked ⟨.brk 20 .offhook, 0⟩ true).line 1).hook = ⟨.brk 20 .offhook, 0⟩ ∧
      ((hooked ⟨.brk 21 .offhook, 11⟩ true).line 1).hook = ⟨.brk 21 .offhook, 11⟩ := by decide +kernel

theorem witness_HookClassifierQualifies_contexts :
    let c := sending (.onHookCid none)
    let b : Line := { hooked ⟨.brk 20 .offhook, 0⟩ true |>.line 1 with background := some (program .active 2 ⟨0, 0, none, .idle⟩) }
    let p := { with1 b with programs := State.reset.programs.set 2 ⟨.exclusive, 1, true, [⟨none, 1⟩]⟩ }
    let o := with1 { hooked ⟨.brk 180 .offhook, 0⟩ false |>.line 1 with
      foreground := some ⟨.active, .exclusive, .offHookCid ⟨0, .alert, 0, none, none⟩⟩ }
    (c.line 1).ring.holdsCid = true ∧ (c.line 1).foreground = some ⟨.active, .exclusive, .onHookCid none⟩ ∧
      (p.line 1).background = some ⟨.active, .exclusive, .program 2 ⟨0, 0, none, .idle⟩⟩ ∧
      (p.programs.getD 2 ⟨.overlay, 0, false, []⟩).cutOnDigit = true ∧
      ((programmed b).programs.getD 2 ⟨.overlay, 0, false, []⟩).cutOnDigit = false ∧ (o.line 1).hook.state = .brk 180 .offhook ∧
      (o.line 1).foreground = some ⟨.active, .exclusive, .offHookCid ⟨0, .alert, 0, none, none⟩⟩ :=
  ⟨rfl, rfl, rfl, rfl, rfl, rfl, rfl⟩

theorem witness_DigitMachineQualifiesAndReleases :
    let s := hearing (.dtmf 12) ⟨⟨.seeking, some 12, 7⟩, 0, 0, 0⟩
    let v := with1 { hearing (.dtmf 12) ⟨⟨.seeking, some 12, 7⟩, 0, 0, 0⟩ |>.line 1 with
      foreground := some ⟨.active, .exclusive, .offHookCid ⟨0, .awaitAck, 3, none, none⟩⟩ }
    s.resetLow = false ∧ (s.line 1).detectorDue = true ∧ s.Room 2 ∧ (s.line 1).mode = .voice ∧ (s.line 1).NoContexts ∧
      (s.line 1).detector.digits = ⟨.seeking, some 12, 7⟩ ∧ (s.line 1).closedHalf.cls = .dtmf 12 ∧
      (v.line 1).foreground = some ⟨.active, .exclusive, .offHookCid ⟨0, .awaitAck, 3, none, none⟩⟩ ∧ v.Room 2 ∧
      ((with1 { loading with mode := .fax }).line 1).mode = .fax :=
  ⟨rfl, rfl, ⟨rfl, by decide⟩, rfl, ⟨rfl, rfl⟩, rfl, rfl, rfl, ⟨rfl, by decide⟩, rfl⟩

/-- The cells that qualify nothing: another digit in SEEKING, OTHER in SEEKING, and in HELD the held digit, another digit as second and as third
release cell, and a fax class as third. A digit in an off-hook CID is reported in SETTLE, and there is none to report in ALERT but by rule. -/
theorem witness_DigitMachineQualifiesAndReleases_cells :
    ((hearing (.dtmf 6) ⟨⟨.seeking, some 5, 7⟩, 0, 0, 0⟩).line 1).closedHalf.cls = .dtmf 6 ∧
    ((hearing .other ⟨⟨.seeking, some 5, 7⟩, 98, 58, 0⟩).line 1).detector.digits = ⟨.seeking, some 5, 7⟩ ∧
    ((hearing (.dtmf 5) ⟨⟨.held 5 65535 2 true, none, 0⟩, 0, 0, 0⟩).line 1).closedHalf.cls = .dtmf 5 ∧
    ((hearing (.dtmf 6) ⟨⟨.held 5 9 1 false, some 6, 1⟩, 0, 0, 0⟩).line 1).detector.digits = ⟨.held 5 9 1 false, some 6, 1⟩ ∧
    ((hearing (.dtmf 6) ⟨⟨.held 5 9 2 false, some 6, 2⟩, 0, 0, 0⟩).line 1).closedHalf.cls = .dtmf 6 ∧
    ((hearing .faxCalling ⟨⟨.held 5 9 2 true, none, 0⟩, 98, 0, 0⟩).line 1).detector.faxCalling ≠ 99 ∧
    (with1 { (hearing (.dtmf 15) ⟨⟨.seeking, some 15, 7⟩, 0, 0, 0⟩).line 1 with
      foreground := some ⟨.active, .exclusive, .offHookCid ⟨0, .settle, 3, none, none⟩⟩ } |>.line 1).foreground ≠
        some ⟨.active, .exclusive, .offHookCid ⟨0, .awaitAck, 3, none, none⟩⟩ := by decide +kernel

/-- R161, the third release cell: the run of another digit goes on in SEEKING. -/
theorem test_release_run :
    let t := after (.digitEnd 1) (hearing (.dtmf 6) ⟨⟨.held 5 9 2 false, some 6, 2⟩, 0, 0, 0⟩)
    (t.line 1).detector.digits = ⟨.seeking, some 6, 3⟩ ∧ t.events = [⟨.digitEnd 5 9, some 1, 4⟩] := by decide +kernel

theorem witness_DigitMachineQualifiesAndReleases_cut :
    let s := { with1 { (hearing (.dtmf 12) ⟨⟨.seeking, some 12, 7⟩, 0, 0, 0⟩).line 1 with
      background := some (program .active 2 ⟨0, 0, none, .idle⟩) } with
      programs := State.reset.programs.set 2 ⟨.exclusive, 1, true, [⟨none, 1⟩]⟩ }
    (s.line 1).background = some ⟨.active, .exclusive, .program 2 ⟨0, 0, none, .idle⟩⟩ ∧ (s.line 1).foreground = none ∧
      (s.programs.getD 2 ⟨.overlay, 0, false, []⟩).cutOnDigit = true ∧ s.Room 2 := ⟨rfl, rfl, rfl, ⟨rfl, by decide⟩⟩

theorem witness_FaxTonesQualify :
    let s := hearing .faxCalling ⟨⟨.seeking, none, 0⟩, 99, 0, 0⟩
    let u := hearing .faxAnswer ⟨⟨.seeking, none, 0⟩, 0, 59, 0⟩
    let v := with1 { loading with detector := ⟨.reset, 0, 0, 59⟩ }
    s.resetLow = false ∧ (s.line 1).detectorDue = true ∧ s.Room 1 ∧ (s.line 1).mode = .voice ∧
      (s.line 1).detector.digits.phase = .seeking ∧ (s.line 1).closedHalf.cls = .faxCalling ∧ (s.line 1).detector.faxCalling = 99 ∧
      (u.line 1).closedHalf.cls = .faxAnswer ∧ (u.line 1).detector.captureAnswer = 59 ∧
      v.LoadReady 1 ∧ (v.line 1).NoContexts ∧ v.Room 1 ∧ (v.line 1).mode = .voice ∧ (v.line 1).detector.playoutAnswer = 59 ∧
      (20 * 32767 ^ 2) ^ 5 ≤ (((List.replicate 40 (93 : Sample)).map fun x => x.toInt.natAbs ^ 2).sum) ^ 5 * 10 ^ 24 :=
  ⟨rfl, rfl, ⟨rfl, by decide⟩, rfl, rfl, rfl, rfl, rfl, rfl, loadReady _ rfl rfl, ⟨rfl, rfl⟩, ⟨rfl, by decide⟩, rfl, rfl,
    by decide +kernel⟩

theorem witness_StatusRequestsChangeNothing : (with1 live).Names .control 1 1 ∧ (with1 live).Names .media 1 1 ∧
    ((with1 live).line 1).enabled = true ∧ ((with1 live).line 1).HasRing ⟨16, 8⟩ ∧ (running.line 1).enabled = false ∧
    (running.line 1).DisabledLaw ∧ running.Hears .control ∧ running.Hears .media ∧ running.deposit = none ∧
    (running.setDeposit (some (opened 40 false))).deposit = some (opened 40 false) :=
  ⟨named1 _ _, named1 _ _, rfl, ⟨rfl, by decide⟩, rfl, fun _ => rfl, heard _, heard _, rfl, rfl⟩

theorem witness_LinkFlagsAndModes : running.Hears .control ∧ running.Hears .media ∧ 2 ≤ (2 : Byte).toNat ∧
    (running.link .media).irq.mode = .level ∧ ((after (.setIrqMode .media 1) running).link .media).irq.mode = .pulse ∧
    knownCode .media 0x01 = false ∧ (argumentCodes .media).contains 0x40 = true ∧ (0x40 : Byte) ≠ 0x41 :=
  ⟨heard _, heard _, by decide, rfl, by decide +kernel, by decide, by decide, by decide⟩

theorem witness_LinkFlagsAndModes_ignored :
    let s := after (.deviceReset false true true) running
    s.resetLow = false ∧ s.job = none ∧ (s.link .control).ignoring = true ∧ (s.link .media).ignoring = true ∧
      frameOf (.readEvents 16) = some (.control, [0x10, 16]) ∧ WellFormed (.readEvents 16) = true ∧
      frameOf .abandonDeposit = some (.media, [0x43]) := by decide +kernel

theorem witness_EventQueueArrivalsAndReads :
    let full : List EventRecord := List.replicate 63 ⟨.flash, some 3, 1⟩
    let s := { rung ⟨.on 2 1, 20, 30, 2, none⟩ with events := full }
    overflowed s.events = false ∧ s.events.length = 63 ∧ s.resetLow = false ∧ (s.line 1).ringDue = true ∧
      (s.line 1).ring.state = .on 2 1 ∧ (s.line 1).ring.cid = none ∧ (s.line 1).ring.bursts = 2 ∧
      (after (.burstEnd 1) s).events = full ++ [⟨.overflow 1, none, 4⟩] ∧ min 65535 (65535 + 1) = 65535 := by decide +kernel

theorem witness_EventQueueArrivalsAndReads_read : running.Hears .control ∧ (0 : Byte).toNat = 0 ∧ 16 < (17 : Byte).toNat ∧
    1 ≤ (16 : Byte).toNat ∧ (16 : Byte).toNat ≤ 16 := ⟨heard _, by decide, by decide, by decide, by decide⟩

theorem witness_InterruptOutputsFollowState :
    let s := ({ running with
      mLink := { LinkState.reset with irq := ⟨.pulse, 1, 0, 0⟩ }, cLink := { LinkState.reset with irq := ⟨.pulse, 255, 0, 0⟩ } } : State)
    running.mLink.irq.mode = .level ∧ running.cLink.irq.mode = .level ∧ s.resetLow = false ∧ s.mLink.irq = ⟨.pulse, 0 + 1, 0, 0⟩ ∧ s.cLink.irq = ⟨.pulse, 254 + 1, 0, 0⟩ := by decide +kernel

/-! ### Witnesses of the laws: a state past reset that obeys each, with a step to take -/

/-- A state with one live line whose source 2 stands in one slot, RINGEN low, one record queued, and a command waiting. -/
def lawful : State :=
  ({ holding with
    events := [⟨.flash, some 1, 3⟩], deposit := some (opened 40 false), tones := State.reset.tones.set 3 ⟨350, 440, 26⟩
    toneStaging := [7] } : State).withPending [.load 1]

theorem lawful_steps : ∃ t, step lawful = .next t := ⟨_, rfl⟩

theorem lawful_store : lawful.StoreLaw := holding_store

theorem lawful_slots : lawful.SlotLaw := by
  intro a r
  have h : lawful.store.read a =
      if 21 = a then ⟨silence, .slot ⟨.filled, (Four.all false).set 2 true, ⟨true, false⟩⟩⟩ else StoreCell.reset := rfl
  rw [h]
  split
  · intro h
    cases h
    exact ⟨by decide, by decide, fun h => nomatch h⟩
  · intro h
    cases h
    exact ⟨by decide, by decide, fun _ => rfl⟩

/-- What holds of the live line of `lawful` and of a line after reset holds of every line. -/
theorem lawful_lines {P : Line → Prop} (h1 : P (lawful.line 1)) (h0 : P Line.reset) : lawful.EachLine P := by
  intro l
  fin_cases l
  · exact h0
  · exact h1
  · exact h0
  · exact h0

theorem lawful_rings : lawful.EachLine Line.RingLaw := by
  refine lawful_lines (P := Line.RingLaw) ⟨rfl, fun _ => rfl, ?_, ?_⟩ ⟨rfl, ?_, ?_, ?_⟩
  · intro e h
    cases h
    decide
  · intro e h
    cases h
    decide
  · intro h
    cases h
  · intro e h
    cases h
  · intro e h
    cases h

theorem lawful_partition : lawful.PartitionLaw := by
  refine ⟨lawful_rings, ?_, ?_⟩
  · intro l x y hx hy
    fin_cases l <;> cases hx
    cases hy
    rfl
  · intro l k h
    refine ⟨?_, ?_, ?_⟩ <;> intro x y hx hy <;> fin_cases l <;> fin_cases k <;>
      first
        | (cases hx; done)
        | (cases hy; done)
        | exact absurd rfl h

theorem lawful_disabled : lawful.EachLine Line.DisabledLaw := lawful_lines (P := Line.DisabledLaw) (fun h => by cases h) fun _ => rfl

theorem lawful_contexts : lawful.EachLine Line.ContextLaw :=
  lawful_lines (P := Line.ContextLaw) ⟨fun _ h => (nomatch h), fun _ h => (nomatch h)⟩ ⟨fun _ h => (nomatch h), fun _ h => (nomatch h)⟩

theorem lawful_ring_trip : lawful.EachLine Line.RingTripLaw := lawful_lines (P := Line.RingTripLaw) (fun _ => rfl) fun _ => rfl

theorem witness_NeverRingsOffHook : called.RingTripLaw ∧ called.offHook = true := ⟨fun _ => rfl, rfl⟩

theorem lawful_slips : lawful.EachLine Line.SlipLaw := lawful_lines (P := Line.SlipLaw) ⟨by decide, by decide⟩ ⟨by decide, by decide⟩

theorem lawful_indices : lawful.EachLine Line.IndexLaw :=
  lawful_lines (P := Line.IndexLaw) (fun _ => by decide +kernel) fun h => by cases h

theorem lawful_cid : lawful.EachLine Line.CidLaw :=
  lawful_lines (P := Line.CidLaw) (cidLaw_idle _ rfl rfl fun _ h => (nomatch h)) (cidLaw_idle _ rfl rfl fun _ h => (nomatch h))

/-- The law of the on-hook CID where it says more: a line that sends one. -/
theorem sending_cid : ((sending (.onHookCid none)).line 1).CidLaw := by
  refine ⟨fun _ h => (nomatch h), ?_, by decide, ⟨_, rfl, rfl⟩⟩
  intro c h
  cases h
  exact .inr rfl

theorem lawful_stats : lawful.EachLine Line.StatsLaw := lawful_lines (P := Line.StatsLaw)
  (by unfold Line.StatsLaw Stats.InRange; decide +kernel) (by unfold Line.StatsLaw Stats.InRange; decide +kernel)

theorem lawful_depths : lawful.EachLine Line.DepthLaw :=
  lawful_lines (P := Line.DepthLaw) (fun _ => by decide +kernel) fun h => by cases h

theorem lawful_fsk : lawful.EachLine Line.FskLaw :=
  lawful_lines (P := Line.FskLaw) ⟨fun _ h => (nomatch h), fun _ h => (nomatch h)⟩ ⟨fun _ h => (nomatch h), fun _ h => (nomatch h)⟩

/-- The law of the bit accumulator where it says more: an FSK under way. -/
theorem sending_fsk : ((sending (.onHookCid (some ⟨0, 19, 514, 9213⟩))).line 1).FskLaw := by
  refine ⟨fun _ h => (nomatch h), ?_⟩
  intro c h
  cases h
  exact fun x hx => by
    cases hx
    decide

theorem lawful_samples : lawful.SampleLaw := by
  refine ⟨by decide, rfl, ?_, fun _ h => (nomatch h), lawful_lines (P := Line.SampleLaw 0)
    ⟨rfl, rfl, fun _ h => (nomatch h), fun _ _ => ⟨rfl, fun h => nomatch h⟩, fun _ h => nomatch h⟩
    ⟨rfl, rfl, fun _ h => (nomatch h), fun h => (nomatch h), fun h => nomatch h⟩⟩
  intro a
  have h : lawful.store.read a =
      if 21 = a then ⟨silence, .slot ⟨.filled, (Four.all false).set 2 true, ⟨true, false⟩⟩⟩ else StoreCell.reset := rfl
  rw [h]
  split <;> rfl

theorem lawful_idle : lawful.IdleLaw := by
  intro l
  fin_cases l
  · exact fun h => nomatch h
  · exact fun _ h => nomatch h
  · exact fun h => nomatch h
  · exact fun h => nomatch h

/-- The law of an IDLE line where it says more: an ENABLED line in IDLE. -/
theorem live_idle : (with1 live).IdleLaw ∧ ((with1 live).line 1).enabled = true ∧ ((with1 live).line 1).playout = .idle := by
  refine ⟨?_, rfl, rfl⟩
  intro l h _
  fin_cases l
  · cases h
  · exact ⟨fun m => by fin_cases m <;> rfl, fun _ _ => rfl⟩
  · cases h
  · cases h

theorem lawful_records : lawful.RecordLaw := by
  intro l h k hk
  fin_cases l <;> cases hk

/-- The law of the records where it says more: one unread record after a capture store. -/
theorem stored_record :
    let s := after (.captureStore 1) (with1 loading)
    (s.line 1).unread = 1 ∧ ((s.store.read 100).info matches .capture _) := by decide +kernel

theorem lawful_queue : QueueLaw lawful.events := by
  unfold QueueLaw
  decide +kernel

theorem lawful_deposit : lawful.DepositLaw := by
  intro d h
  cases h
  decide +kernel

theorem lawful_tones : lawful.ToneLaw := by
  unfold State.ToneLaw
  decide +kernel

theorem lawful_programs : lawful.ProgramLaw := by
  unfold State.ProgramLaw
  decide +kernel

theorem witness_HorizonOnlyAdvancesByLoads :
    let s := with1 loading
    exec (.load 1) s = .next (after (.load 1) s) ∧ NoReset (.load 1) ∧ (s.line 1).enabled = true ∧
      ((after (.load 1) s).line 1).enabled = true :=
  ⟨rfl, fun _ _ _ h => (nomatch h), rfl, rfl⟩

theorem witness_RequestsKeepOtherLink :
    exec .abandonDeposit running = .next (after .abandonDeposit running) ∧ frameOf .abandonDeposit = some (.media, [0x43]) ∧
      frameOf (.enableLine 1) = some (.control, [0x03, 1]) ∧
      exec (.commitDeposit 1) running = .next (after (.commitDeposit 1) running) := ⟨rfl, by decide, by decide, rfl⟩

theorem witness_FramesReadBackAsWritten :
    WellFormed (.loadCid 1 4 2 [48, 51]) = true ∧ frameOf (.loadCid 1 4 2 [48, 51]) = some (.control, 0x0C :: [1, 4, 2, 48, 51]) ∧
      (∀ j x, Instr.loadCid 1 4 2 [48, 51] ≠ .truncatedFrame j x) ∧ 4 < ([1, 4, 2, 48, 51] : List Byte).length := by
  refine ⟨by decide, by decide, ?_, by decide⟩
  intro j x h
  cases h

end Sys2Proof.Tests
end

section
/-! The Partition Table under every command (R16): what each operation of a line leaves of its two entries, then what each command leaves
of the part's eight, and from these O9. -/

namespace Sys2Proof.Machine

/-- The two entries of the Partition Table that a line holds (2.2). -/
def Line.rings (L : Line) : Option RingEntry × Option RingEntry := (L.playRing, L.capRing)

/-- The whole Partition Table. -/
def State.rings (s : State) (l : Fin 4) : Option RingEntry × Option RingEntry := (s.line l).rings

theorem Line.rings_eq_iff {a b : Line} : a.rings = b.rings ↔ a.playRing = b.playRing ∧ a.capRing = b.capRing :=
  Prod.mk_inj

theorem Line.SameTimeline.rings {a b : Line} (h : SameTimeline a b) : a.rings = b.rings :=
  Line.rings_eq_iff.mpr ⟨h.playRing, h.capRing⟩

/-! ### Requests on one line -/

section Lines

variable (L : Line)

@[simp] theorem Line.stopRinging_rings : L.stopRinging.1.rings = L.rings := (L.endRinging_timeline .stop).rings

@[simp] theorem Line.startContext_rings (record : Nat) (p : ProgramRecord) (v : Level) :
    (L.startContext record p v).1.rings = L.rings := by
  cases v <;> rfl

@[simp] theorem Line.stopProgram_rings (v : Level) : (L.stopProgram v).1.rings = L.rings := by
  cases v <;> rfl

@[simp] theorem Line.settledAnchor_rings (w : Write) : (L.settledAnchor w).rings = L.rings := by
  unfold Line.settledAnchor
  split <;> rfl

@[simp] theorem Line.write_rings (w : Write) (st : Store) : (L.write w st).1.rings = L.rings := by
  unfold Line.write
  dsimp only
  split
  · split <;> exact L.settledAnchor_rings w
  · rfl

/-! ### Events of one line -/

@[simp] theorem Line.cutBackground_rings (programs : List ProgramRecord) : (L.cutBackground programs).1.rings = L.rings := by
  unfold Line.cutBackground
  split <;> rfl

@[simp] theorem Line.setDigits_rings (m : DigitMachine) : (L.setDigits m).rings = L.rings := rfl

@[simp] theorem Line.qualifyDigit_rings (programs : List ProgramRecord) (d : Digit) :
    (L.qualifyDigit programs d).1.rings = L.rings := by
  unfold Line.qualifyDigit
  split
  · rfl
  · simp

@[simp] theorem Line.stepDigits_rings (programs : List ProgramRecord) (c : CellClass) :
    (L.stepDigits programs c).1.rings = L.rings := by
  unfold Line.stepDigits
  split
  · unfold Line.seekDigit
    dsimp only
    split
    · split <;> simp
    · simp
  · unfold Line.holdDigit
    dsimp only
    split
    · simp
    · split <;> simp

@[simp] theorem Line.autoFaxAction_rings : L.autoFaxAction.rings = L.rings := L.autoFaxAction_timeline.rings

@[simp] theorem Line.stepCalling_rings (c : CellClass) : (L.stepCalling c).1.rings = L.rings := by
  unfold Line.stepCalling
  dsimp only
  split
  · exact Line.autoFaxAction_rings _
  · rfl

@[simp] theorem Line.stepCaptureAnswer_rings (c : CellClass) : (L.stepCaptureAnswer c).1.rings = L.rings := by
  unfold Line.stepCaptureAnswer
  dsimp only
  split
  · exact Line.autoFaxAction_rings _
  · rfl

@[simp] theorem Line.takeDetector_rings (programs : List ProgramRecord) : (L.takeDetector programs).1.rings = L.rings := by
  show (L.stepDetector programs L.closedHalf.cls).1.rings = L.rings
  unfold Line.stepDetector
  split <;> simp

@[simp] theorem Line.setHook_rings (st : HookState) (pulses : Nat) : (L.setHook st pulses).rings = L.rings := rfl

@[simp] theorem Line.qualifyOffHook_rings : L.qualifyOffHook.1.rings = L.rings :=
  ((L.setHook .offhook 0).endRinging_timeline .offHook).rings

@[simp] theorem Line.onHookForeground_rings : L.onHookForeground.1.rings = L.rings := by
  unfold Line.onHookForeground
  split
  · split <;> rfl
  · rfl

@[simp] theorem Line.onHookBackground_rings : L.onHookBackground.1.rings = L.rings := by
  unfold Line.onHookBackground
  split <;> rfl

@[simp] theorem Line.qualifyOnHook_rings : L.qualifyOnHook.1.rings = L.rings := by
  simp [Line.qualifyOnHook, Line.onHookContexts]

@[simp] theorem Line.endBreak_rings (programs : List ProgramRecord) (b : Nat) (ret : HookReturn) :
    (L.endBreak programs b ret).1.rings = L.rings := by
  unfold Line.endBreak
  dsimp only
  split
  · simp
  · split
    · split <;> simp
    · simp

@[simp] theorem Line.stepHook_rings (programs : List ProgramRecord) (raw : Bool) : (L.stepHook programs raw).1.rings = L.rings := by
  unfold Line.stepHook
  split
  case h_2 | h_5 | h_8 => split <;> simp
  all_goals simp

@[simp] theorem Line.takeHook_rings (programs : List ProgramRecord) : (L.takeHook programs).1.rings = L.rings :=
  Line.stepHook_rings _ programs L.hookPin

@[simp] theorem Line.setRing_rings (r : RingState) : (L.setRing r).rings = L.rings := rfl

@[simp] theorem Line.endPlainBurst_rings (begun : Nat) : (L.endPlainBurst begun).1.rings = L.rings := by
  unfold Line.endPlainBurst
  split <;> rfl

@[simp] theorem Line.endBurst_rings (begun : Nat) : (L.endBurst begun).1.rings = L.rings := by
  unfold Line.endBurst
  split
  · split <;> simp
  · simp

@[simp] theorem Line.beginBurst_rings (begun : Nat) : (L.beginBurst begun).rings = L.rings := rfl

@[simp] theorem Line.beginCid_rings (begun remaining : Nat) : (L.beginCid begun remaining).rings = L.rings := rfl

@[simp] theorem Line.stepRing_rings : L.stepRing.1.rings = L.rings := by
  unfold Line.stepRing
  split
  case h_2 | h_3 | h_4 => split <;> simp
  all_goals simp

@[simp] theorem Line.takeRing_rings : L.takeRing.1.rings = L.rings := Line.stepRing_rings _

@[simp] theorem Line.loadCell_rings (i : LoadInput) : (L.loadCell i).1.rings = L.rings := (L.loadCell_timeline i).rings

@[simp] theorem Line.stored_rings : L.stored.rings = L.rings := by
  unfold Line.stored
  split <;> rfl

/-! ### Boundaries and frames on one line -/

@[simp] theorem Line.setCapture_rings (h : HalfId) (x : CaptureHalf) : (L.setCapture h x).rings = L.rings := by
  cases h <;> rfl

@[simp] theorem Line.closeCapture_rings : L.closeCapture.rings = L.rings := by
  show ((L.setCapture L.filling _).setCapture L.filling.other _).rings = L.rings
  simp

@[simp] theorem Line.boundaryRing_rings : L.boundaryRing.rings = L.rings := by
  unfold Line.boundaryRing
  split
  · rfl
  · simp

@[simp] theorem Line.boundary_rings : L.boundary.rings = L.rings := by
  unfold Line.boundary
  split
  · split
    · show L.closeCapture.boundaryRing.rings = L.rings
      simp
    · rfl
  · rfl

@[simp] theorem Line.receive_rings (x : Sample) : (L.receive x).rings = L.rings := by
  simp [Line.receive]

@[simp] theorem Line.send_rings : L.send.rings = L.rings := by
  unfold Line.send
  split <;> rfl

@[simp] theorem Line.frame_rings (x : Sample) (pin : Bool) : (L.frame x pin).rings = L.rings := by
  unfold Line.frame
  dsimp only
  split
  · show (Line.send (Line.receive _ x)).rings = L.rings
    rw [Line.send_rings, Line.receive_rings]
    rfl
  · rfl

end Lines

/-! ### Operations of the part -/

section Part

variable {s t : State}

theorem State.rings_of_lines (h : t.lines = s.lines) : t.rings = s.rings := by
  funext l
  simp [State.rings, State.line, h]

theorem State.rings_eq_iff : t.rings = s.rings ↔
    ∀ l, (t.line l).playRing = (s.line l).playRing ∧ (t.line l).capRing = (s.line l).capRing :=
  funext_iff.trans (forall_congr' fun _ => Line.rings_eq_iff)

/-- A line's record replaced by one with the same entries. -/
@[simp] theorem State.setLine_rings {l : Fin 4} {L : Line} (h : L.rings = (s.line l).rings) : (s.setLine l L).rings = s.rings := by
  funext k
  by_cases hk : k = l <;> simp [State.rings, State.line_setLine, hk, h]

@[simp] theorem State.setDeposit_rings (d : Option Deposit) : (s.setDeposit d).rings = s.rings := rfl

@[simp] theorem State.breakDeposit_rings : s.breakDeposit.rings = s.rings := rfl

@[simp] theorem State.setSequence_rings : s.setSequence.rings = s.rings := rfl

@[simp] theorem State.setLink_rings (k : Link) (x : LinkState) : (s.setLink k x).rings = s.rings :=
  State.rings_of_lines (by simp)

@[simp] theorem State.answer_rings (k : Link) (r : Result) (fs : List Byte) : (s.answer k r fs).rings = s.rings :=
  State.rings_of_lines (by simp)

/-- A line's record replaced as a request does it, with its answer. -/
theorem State.setLine_answer_rings {l : Fin 4} {L : Line} {k : Link} {r : Result} {fs : List Byte}
    (h : L.rings = (s.line l).rings) : ((s.setLine l L).answer k r fs).rings = s.rings :=
  (State.answer_rings k r fs).trans (State.setLine_rings h)

@[simp] theorem State.refuse_rings (k : Link) (r : Result) : (s.refuse k r).rings = s.rings :=
  State.rings_of_lines (by simp)

@[simp] theorem State.truncated_rings (k : Link) : (s.truncated k).rings = s.rings :=
  State.rings_of_lines (by simp)

@[simp] theorem State.clearFlags_rings (k : Link) : (s.clearFlags k).rings = s.rings :=
  State.rings_of_lines (by simp)

@[simp] theorem State.beginWrites_rings (w : Write) (ls : List (Fin 4)) : (s.beginWrites w ls).rings = s.rings := rfl

@[simp] theorem State.endWrites_rings (w : Write) (bs : List Byte) : (s.endWrites w bs).rings = s.rings :=
  State.rings_of_lines (by simp)

/-- An event whose outcome on its line has the same entries. -/
@[simp] theorem State.commitLine_rings {l : Fin 4} {stamp : Word32} {r : LineStep} (h : r.1.rings = (s.line l).rings) :
    (s.commitLine l stamp r).rings = s.rings :=
  (State.rings_of_lines (by simp)).trans (State.setLine_rings h)

theorem State.foldl_rings {α : Type} {f : State → α → State} (hf : ∀ s a, (f s a).rings = s.rings) (as : List α) (s : State) :
    (as.foldl f s).rings = s.rings := by
  induction as generalizing s with
  | nil => rfl
  | cons a as ih => exact (ih _).trans (hf s a)

/-! ### Writes of a deposit or a fill -/

@[simp] theorem State.writeLine_rings (w : Write) (l : Fin 4) : (s.writeLine w l).rings = s.rings :=
  State.setLine_rings ((s.line l).write_rings w s.store)

@[simp] theorem State.writeLines_rings (w : Write) (ls : List (Fin 4)) : (s.writeLines w ls).rings = s.rings :=
  State.foldl_rings (fun _ l => State.writeLine_rings w l) ls s

@[simp] theorem State.advance_rings (n : Nat) : (s.advance n).rings = s.rings := by
  obtain ⟨-, ht⟩ | ⟨j, -, ⟨-, ht⟩ | ⟨-, ht⟩⟩ := s.advance_cases n
  · rw [ht]
  · simp [ht]
  · rw [ht]
    exact State.writeLines_rings _ _

@[simp] theorem State.finishWrites_rings : s.finishWrites.rings = s.rings := by
  unfold State.finishWrites
  split
  · rfl
  · exact State.advance_rings _

@[simp] theorem State.beginCommit_rings : s.beginCommit.rings = s.rings := by
  unfold State.beginCommit
  split
  · simp
  · split
    · simp
    · split <;> simp

@[simp] theorem State.beginFill_rings (mask source : Byte) (time : Word32) (control gain : Byte) :
    (s.beginFill mask source time control gain).rings = s.rings := by
  unfold State.beginFill
  split
  · split
    · simp
    · split <;> simp
  · simp

@[simp] theorem State.receiveData_rings (samples : List Sample) : (s.receiveData samples).rings = s.rings := by
  unfold State.receiveData
  split
  · simp
  · dsimp only
    split
    · simp
    · split <;> simp

/-! ### Tones and realignment -/

@[simp] theorem State.writeFields_rings (start : Byte) (fields : List Word16) : (s.writeFields start fields).rings = s.rings := by
  have hfield : ∀ (s : State) (f : Word16), (s.takeField f).rings = s.rings := fun s f => by
    unfold State.takeField
    split <;> rfl
  have hstart : (s.startTones start).rings = s.rings := by
    unfold State.startTones
    split <;> rfl
  exact (State.foldl_rings hfield fields _).trans hstart

@[simp] theorem State.withLine_rings {k : Link} {b : Byte} {f : Fin 4 → State} (hf : ∀ l, (f l).rings = s.rings) :
    (s.withLine k b f).rings = s.rings := by
  obtain ⟨l, -, h⟩ | ⟨-, h⟩ := State.withLine_cases (s := s) (k := k) (b := b) (f := f)
  · rw [h, hf]
  · rw [h, State.refuse_rings]

@[simp] theorem State.checked_rings {k : Link} {checks : List (Bool × Result)} {u : State} (hu : u.rings = s.rings) :
    (s.checked k checks u).rings = s.rings := by
  obtain ⟨-, h⟩ | ⟨r, -, h⟩ := State.checked_cases (s := s) (k := k) (cs := checks) (u := u)
  · rw [h, hu]
  · rw [h, State.refuse_rings]

@[simp] theorem State.realign_rings (line slip : Byte) (clear : Bool) : (s.realign line slip clear).rings = s.rings := by
  refine State.withLine_rings fun l => ?_
  split
  · cases clear <;> exact State.setLine_answer_rings rfl
  · simp

/-! ### Works and boundaries -/

@[simp] theorem State.startStep_rings (l : Fin 4) : (s.startStep l).rings = s.rings := by
  unfold State.startStep
  split
  · exact State.setLine_rings rfl
  · rfl

@[simp] theorem State.captureStep_rings (l : Fin 4) : (s.captureStep l).rings = s.rings := by
  have hline := (s.line l).stored_rings
  unfold State.captureStep State.storeCapture
  dsimp only
  split
  · split
    · exact (State.setLink_rings _ _).trans (State.setLine_rings hline)
    · exact State.setLine_rings hline
  · rfl

@[simp] theorem State.detectorStep_rings (l : Fin 4) : (s.detectorStep l).rings = s.rings := by
  unfold State.detectorStep
  split <;> simp

@[simp] theorem State.hookStep_rings (l : Fin 4) : (s.hookStep l).rings = s.rings := by
  unfold State.hookStep
  split <;> simp

@[simp] theorem State.ringStep_rings (l : Fin 4) : (s.ringStep l).rings = s.rings := by
  unfold State.ringStep
  split <;> simp

@[simp] theorem State.loadStep_rings (l : Fin 4) : (s.loadStep l).rings = s.rings := by
  unfold State.loadStep State.loadLine
  split
  · exact State.commitLine_rings (Line.loadCell_rings _ _)
  · rfl

@[simp] theorem State.boundaryStep_rings : s.boundaryStep.rings = s.rings := by
  unfold State.boundaryStep
  split
  · funext l
    simp [State.rings]
  · rfl

@[simp] theorem State.settleLine_rings (l : Fin 4) : (s.settleLine l).rings = s.rings := by
  simp [State.settleLine]

@[simp] theorem State.settle_rings : s.settle.rings = s.rings :=
  (State.foldl_rings (fun _ l => State.settleLine_rings l) four _).trans State.boundaryStep_rings

@[simp] theorem State.frameStep_rings (hrx : Four Sample) (hook : Four Bool) : (s.frameStep hrx hook).rings = s.rings := by
  funext l
  fin_cases l <;> exact Line.frame_rings _ _ _

/-! ### Commands -/

/-- An effect that keeps the table, in a command of the part or behind either link. -/
theorem State.take_rings {f : State → State} (h : s.take f = .next t) (hf : ∀ s, (f s).rings = s.rings) : t.rings = s.rings := by
  obtain ⟨-, rfl⟩ | ⟨-, rfl⟩ := State.take_next h
  · rfl
  · exact hf s

theorem State.hear_rings {k : Link} {f : State → State} (hf : ∀ s, (f s).rings = s.rings) : (s.hear k f).rings = s.rings := by
  unfold State.hear
  split
  · simp
  · exact hf s

theorem State.takeControl_rings {f : State → State} (h : s.takeControl f = .next t) (hf : ∀ s, (f s).rings = s.rings) :
    t.rings = s.rings :=
  State.take_rings h fun _ => State.hear_rings hf

theorem State.takeMedia_rings {f : State → State} (h : s.takeMedia f = .next t) (hf : ∀ s, (f s).rings = s.rings) :
    t.rings = s.rings :=
  State.take_rings h fun _ => State.hear_rings fun _ => (hf _).trans State.finishWrites_rings

theorem State.takeOn_rings {k : Link} {f : State → State} (h : s.takeOn k f = .next t) (hf : ∀ s, (f s).rings = s.rings) :
    t.rings = s.rings := by
  cases k
  · exact State.takeControl_rings h hf
  · exact State.takeMedia_rings h hf

/-- A row that names a part of a work: the work where it has that part, and nothing where it has not (log entry 4). -/
theorem State.take_where_rings {p : State → Prop} [DecidablePred p] {f : State → State}
    (h : s.take (fun s => if p s then f s else s) = .next t) (hf : ∀ s, (f s).rings = s.rings) : t.rings = s.rings :=
  State.take_rings h fun s => by
    split
    · exact hf s
    · rfl

/-! ### Requests of the Control Link -/

theorem execEnableLine_rings {line : Byte} (h : execEnableLine line s = .next t) : t.rings = s.rings := by
  refine State.takeControl_rings h fun s => State.withLine_rings fun l => ?_
  split
  · simp
  · exact State.checked_rings (State.setLine_answer_rings rfl)

theorem execDisableLine_rings {line : Byte} (h : execDisableLine line s = .next t) : t.rings = s.rings := by
  refine State.takeControl_rings h fun s => State.withLine_rings fun l => ?_
  split
  · exact State.setLine_answer_rings rfl
  · simp

theorem execSetMode_rings {line mode : Byte} (h : execSetMode line mode s = .next t) : t.rings = s.rings := by
  refine State.takeControl_rings h fun s => State.withLine_rings fun l => ?_
  split
  · simp
  · split
    · exact State.setLine_answer_rings rfl
    · simp

theorem execWriteTones_rings {start count : Byte} {fields : List Word16} (h : execWriteTones start count fields s = .next t) :
    t.rings = s.rings := by
  refine State.takeControl_rings h fun s => ?_
  split
  · simp
  · split <;> simp

theorem execWriteProgram_rings {record control repeats count : Byte} {segments : List RawSegment}
    (h : execWriteProgram record control repeats count segments s = .next t) : t.rings = s.rings := by
  refine State.takeControl_rings h fun s => ?_
  split
  · simp
  · split
    · simp
    · exact State.checked_rings (State.answer_rings _ _ _)

theorem execStartSignal_rings {line record level : Byte} (h : execStartSignal line record level s = .next t) :
    t.rings = s.rings := by
  refine State.takeControl_rings h fun s => State.withLine_rings fun l => ?_
  split
  · simp
  · exact State.checked_rings (by simp)

theorem execStopSignal_rings {line level : Byte} (h : execStopSignal line level s = .next t) : t.rings = s.rings := by
  refine State.takeControl_rings h fun s => State.withLine_rings fun l => ?_
  split
  · simp
  · split
    · simp
    · split
      · simp
      · exact (State.answer_rings _ _ _).trans (State.commitLine_rings rfl)
      · simp

theorem execLoadCid_rings {line type length : Byte} {payload : List Byte} (h : execLoadCid line type length payload s = .next t) :
    t.rings = s.rings := by
  refine State.takeControl_rings h fun s => ?_
  split
  · simp
  · split
    · simp
    · exact State.withLine_rings fun _ => State.checked_rings (State.setLine_answer_rings rfl)

theorem execRingStop_rings {line : Byte} (h : execRingStop line s = .next t) : t.rings = s.rings := by
  refine State.takeControl_rings h fun s => State.withLine_rings fun l => ?_
  split <;> simp

theorem execReadEvents_rings {maximum : Byte} (h : execReadEvents maximum s = .next t) : t.rings = s.rings := by
  refine State.takeControl_rings h fun s => ?_
  split
  · exact State.answer_rings _ _ _
  · simp

/-! ### Requests of the Media Link -/

theorem execOpenDeposit_rings {mask source control gain : Byte} {time : Word32}
    (h : execOpenDeposit mask source time control gain s = .next t) : t.rings = s.rings := by
  refine State.takeMedia_rings h fun s => ?_
  split
  · split
    · simp
    · cases s.deposit <;> simp
  · simp

theorem execDepositData_rings {count : Word16} {samples : List Sample} (h : execDepositData count samples s = .next t) :
    t.rings = s.rings := by
  refine State.takeMedia_rings h fun s => ?_
  split
  · simp
  · split <;> simp

theorem execCommitDeposit_rings {writes : Nat} (h : execCommitDeposit s writes = .next t) : t.rings = s.rings := by
  unfold execCommitDeposit at h
  split at h
  · exact State.take_rings h fun _ => State.advance_rings writes
  · exact State.takeMedia_rings h fun _ => by simp

theorem execAbandonDeposit_rings (h : execAbandonDeposit s = .next t) : t.rings = s.rings := by
  refine State.takeMedia_rings h fun s => ?_
  split <;> simp

theorem execFillCells_rings {mask source control gain : Byte} {time : Word32} {writes : Nat}
    (h : execFillCells mask source time control gain s writes = .next t) : t.rings = s.rings := by
  unfold execFillCells at h
  split at h
  · exact State.take_rings h fun _ => State.advance_rings writes
  · exact State.takeMedia_rings h fun _ => by simp

theorem execLoadFillPattern_rings {count : Word16} {samples : List Sample} (h : execLoadFillPattern count samples s = .next t) :
    t.rings = s.rings := by
  refine State.takeMedia_rings h fun s => ?_
  split
  · simp
  · split
    · simp
    · exact State.answer_rings _ _ _

/-! ### Frames of either link, and of the highway -/

theorem execSetIrqMode_rings {k : Link} {mode : Byte} (h : execSetIrqMode k mode s = .next t) : t.rings = s.rings := by
  refine State.takeOn_rings h fun s => ?_
  split <;> simp

theorem execUnknownCode_rings {k : Link} {code : Byte} (h : execUnknownCode k code s = .next t) : t.rings = s.rings := by
  unfold execUnknownCode at h
  split at h
  · cases h
    rfl
  · exact State.takeOn_rings h fun _ => by simp

theorem execTruncatedFrame_rings {k : Link} {code : Byte} (h : execTruncatedFrame k code s = .next t) : t.rings = s.rings := by
  unfold execTruncatedFrame at h
  split at h
  · exact State.takeOn_rings h fun _ => by split <;> simp
  · cases h
    rfl

theorem execHighwayFrame_rings {hrx : BitVec 256} {hook : Four Bool} (h : execHighwayFrame hrx hook s = .next t) :
    t.rings = s.rings := by
  refine State.take_rings h fun s => ?_
  split
  · simp
  · rfl

/-! ### All commands -/

/-- The commands but DEVICE RESET and CONFIGURE LINE: requests and events alike leave the Partition Table (R16). -/
theorem exec_rings {c : Instr} (h : exec c s = .next t) (hreset : NoReset c)
    (hconf : ∀ line pb pl cb cl, c ≠ .configureLine line pb pl cb cl) : t.rings = s.rings := by
  cases c with
  | deviceReset low cFrame mFrame => exact absurd rfl (hreset low cFrame mFrame)
  | configureLine line pb pl cb cl => exact absurd rfl (hconf line pb pl cb cl)
  | startTimebase =>
    unfold exec execStartTimebase at h
    exact State.takeControl_rings h fun _ => State.answer_rings _ _ _
  | highwayFrame hrx hook => exact execHighwayFrame_rings h
  | globalCellBoundary =>
    unfold exec execGlobalCellBoundary at h
    exact State.take_rings h fun _ => State.boundaryStep_rings
  | startBoundary l =>
    unfold exec execStartBoundary at h
    exact State.take_rings h fun _ => State.startStep_rings l
  | enableLine line => exact execEnableLine_rings h
  | disableLine line => exact execDisableLine_rings h
  | setMode line mode => exact execSetMode_rings h
  | setSupervision line control attenuation =>
    unfold exec execSetSupervision at h
    exact State.takeControl_rings h fun _ => State.withLine_rings fun _ => State.setLine_answer_rings rfl
  | writeTones start count fields => exact execWriteTones_rings h
  | writeProgram record control repeats count segments => exact execWriteProgram_rings h
  | startSignal line record level => exact execStartSignal_rings h
  | stopSignal line level => exact execStopSignal_rings h
  | loadCid line type length payload => exact execLoadCid_rings h
  | cidAlert line entry =>
    unfold exec execCidAlert at h
    exact State.takeControl_rings h fun _ => State.withLine_rings fun _ => State.checked_rings (State.setLine_answer_rings rfl)
  | ringStart line on off bursts cid delay =>
    unfold exec execRingStart at h
    exact State.takeControl_rings h fun _ => State.withLine_rings fun _ => State.checked_rings (State.setLine_answer_rings rfl)
  | ringStop line => exact execRingStop_rings h
  | readEvents maximum => exact execReadEvents_rings h
  | openDeposit mask source time control gain => exact execOpenDeposit_rings h
  | depositData count samples => exact execDepositData_rings h
  | commitDeposit writes => exact execCommitDeposit_rings h
  | abandonDeposit => exact execAbandonDeposit_rings h
  | fillCells mask source time control gain writes => exact execFillCells_rings h
  | loadFillPattern count samples => exact execLoadFillPattern_rings h
  | setPlayout line values =>
    unfold exec execSetPlayout at h
    exact State.takeMedia_rings h fun _ => State.withLine_rings fun _ => State.setLine_answer_rings rfl
  | realign line slip control =>
    unfold exec execRealign at h
    exact State.takeMedia_rings h fun _ => State.realign_rings _ _ _
  | realignWithClear line slip control =>
    unfold exec execRealignWithClear at h
    exact State.takeMedia_rings h fun _ => State.realign_rings _ _ _
  | captureRead line maximum =>
    unfold exec execCaptureRead at h
    exact State.takeMedia_rings h fun _ => State.withLine_rings fun _ => State.checked_rings (State.setLine_answer_rings rfl)
  | readAndClearStatistics line =>
    unfold exec execReadAndClearStatistics at h
    exact State.takeMedia_rings h fun _ => State.withLine_rings fun _ => State.setLine_answer_rings rfl
  | lineStatus link line =>
    unfold exec execLineStatus at h
    exact State.takeOn_rings h fun _ => State.withLine_rings fun _ => State.answer_rings _ _ _
  | readLinkStatus link =>
    unfold exec execReadLinkStatus at h
    exact State.takeOn_rings h fun _ => State.answer_rings _ _ _
  | clearLinkStatus link =>
    unfold exec execClearLinkStatus at h
    exact State.takeOn_rings h fun _ => by simp
  | setIrqMode link mode => exact execSetIrqMode_rings h
  | unknownCode link code => exact execUnknownCode_rings h
  | truncatedFrame link code => exact execTruncatedFrame_rings h
  | load l =>
    unfold exec execLoad at h
    exact State.take_rings h fun _ => State.loadStep_rings l
  | starve l =>
    unfold exec execStarve at h
    exact State.take_where_rings h fun _ => State.loadStep_rings l
  | windowClose l =>
    unfold exec execWindowClose at h
    exact State.take_where_rings h fun _ => State.loadStep_rings l
  | signalDone l =>
    unfold exec execSignalDone at h
    exact State.take_where_rings h fun _ => State.loadStep_rings l
  | alertEnd l =>
    unfold exec execAlertEnd at h
    exact State.take_where_rings h fun _ => State.loadStep_rings l
  | cidNoAck l =>
    unfold exec execCidNoAck at h
    exact State.take_where_rings h fun _ => State.loadStep_rings l
  | settleEnd l =>
    unfold exec execSettleEnd at h
    exact State.take_where_rings h fun _ => State.loadStep_rings l
  | cidSent l =>
    unfold exec execCidSent at h
    exact State.take_where_rings h fun _ => State.loadStep_rings l
  | captureStore l =>
    unfold exec execCaptureStore at h
    exact State.take_rings h fun _ => State.captureStep_rings l
  | mirqPulse periods =>
    unfold exec execMirqPulse at h
    exact State.take_rings h fun _ => State.setLink_rings _ _
  | toneDetectorStep l =>
    unfold exec execToneDetectorStep at h
    exact State.take_rings h fun _ => State.detectorStep_rings l
  | digit l =>
    unfold exec execDigit at h
    exact State.take_where_rings h fun _ => State.detectorStep_rings l
  | digitEnd l =>
    unfold exec execDigitEnd at h
    exact State.take_where_rings h fun _ => State.detectorStep_rings l
  | faxCalling l =>
    unfold exec execFaxCalling at h
    exact State.take_where_rings h fun _ => State.detectorStep_rings l
  | faxAnswer l direction =>
    cases direction with
    | localEnd =>
      unfold exec execFaxAnswer at h
      exact State.take_where_rings h fun _ => State.detectorStep_rings l
    | remoteEnd =>
      unfold exec execFaxAnswer at h
      exact State.take_where_rings h fun _ => State.loadStep_rings l
  | hookSample l =>
    unfold exec execHookSample at h
    exact State.take_rings h fun _ => State.hookStep_rings l
  | offHook l =>
    unfold exec execOffHook at h
    exact State.take_where_rings h fun _ => State.hookStep_rings l
  | onHook l =>
    unfold exec execOnHook at h
    exact State.take_where_rings h fun _ => State.hookStep_rings l
  | pulseDigit l =>
    unfold exec execPulseDigit at h
    exact State.take_where_rings h fun _ => State.hookStep_rings l
  | burstEnd l =>
    unfold exec execBurstEnd at h
    exact State.take_where_rings h fun _ => State.ringStep_rings l
  | burstBegin l =>
    unfold exec execBurstBegin at h
    exact State.take_where_rings h fun _ => State.ringStep_rings l
  | cidSend l =>
    unfold exec execCidSend at h
    exact State.take_where_rings h fun _ => State.ringStep_rings l
  | cirqPulse periods =>
    unfold exec execCirqPulse at h
    exact State.take_rings h fun _ => State.setLink_rings _ _

/-! ### CONFIGURE LINE -/

theorem firstFailing_configureChecks_enabled {l : Fin 4} (p c : RingEntry) (he : (s.line l).enabled = true) :
    firstFailing (configureChecks s l p c) = some .state := by
  simp [configureChecks, firstFailing, he]

theorem exec_configureLine_enabled {l : Fin 4} {line : Byte} (pb pl cb : Word16) (cl : Byte) (hn : s.Names .control line l)
    (he : (s.line l).enabled = true) : exec (.configureLine line pb pl cb cl) s = .next (s.refuse .control .state) := by
  obtain ⟨⟨hlow, hignoring, -⟩, hline⟩ := hn
  show execConfigureLine line pb pl cb cl s = _
  rw [execConfigureLine, State.takeControl_heard hlow hignoring, State.withLine_of_eq hline,
    State.checked_fail (firstFailing_configureChecks_enabled _ _ he)]

/-- A CONFIGURE LINE of line `k` leaves the entries of every ENABLED line: it is refused where that line is `k`. -/
theorem State.checked_configure_rings {k l : Fin 4} (p c : RingEntry) (he : (s.line l).enabled = true) :
    (s.checked .control (configureChecks s k p c) ((s.setLine k ((s.line k).withRings p c)).answer .control .ok [])).rings l =
      s.rings l := by
  by_cases hlk : l = k
  · subst hlk
    rw [State.checked_fail (firstFailing_configureChecks_enabled p c he), State.refuse_rings]
  · obtain ⟨-, hc⟩ | ⟨r, -, hc⟩ := State.checked_cases (s := s) (k := .control) (cs := configureChecks s k p c)
    · rw [hc]
      simp [State.rings, State.line_setLine, hlk]
    · rw [hc, State.refuse_rings]

/-- CONFIGURE LINE changes the entries of a line only while that line is DISABLED (R16, R17). -/
theorem exec_configureLine_rings {line : Byte} {pb pl cb : Word16} {cl : Byte}
    (h : exec (.configureLine line pb pl cb cl) s = .next t) (l : Fin 4) : t.rings l = s.rings l ∨ (s.line l).enabled = false := by
  cases he : (s.line l).enabled with
  | false => exact .inr rfl
  | true =>
    left
    obtain ⟨-, rfl⟩ | ⟨-, -, rfl⟩ | ⟨-, -, rfl⟩ := State.takeControl_cases h
    · rfl
    · rw [State.setLink_rings]
    · obtain ⟨k, -, hk⟩ | ⟨-, hk⟩ := State.withLine_cases (s := s) (k := .control) (b := line)
      · rw [hk]
        exact State.checked_configure_rings _ _ he
      · rw [hk, State.refuse_rings]

end Part

/-- Settles O9: no other command reaches the Partition Table (`exec_rings`), and the first check of CONFIGURE LINE keeps the entries of an
ENABLED line (`exec_configureLine_rings`). -/
theorem entriesChangeOnlyByConfigure : Obligations.EntriesChangeOnlyByConfigure := by
  unfold Obligations.EntriesChangeOnlyByConfigure
  refine ⟨fun low cFrame mFrame s => ⟨_, rfl, fun l => ?_⟩, fun s l line pb pl cb cl hn he => ?_, fun c s t l h hreset => ?_⟩
  · fin_cases l <;> exact ⟨rfl, rfl⟩
  · exact exec_configureLine_enabled pb pl cb cl hn he
  · by_cases hc : ∃ line pb pl cb cl, c = .configureLine line pb pl cb cl
    · obtain ⟨line, pb, pl, cb, cl, rfl⟩ := hc
      exact (exec_configureLine_rings h l).imp Line.rings_eq_iff.mp fun he => ⟨he, line, pb, pl, cb, cl, rfl⟩
    · refine .inl (State.rings_eq_iff.mp (exec_rings h hreset ?_) l)
      rintro line pb pl cb cl rfl
      exact hc ⟨line, pb, pl, cb, cl, rfl⟩

end Sys2Proof.Machine
end

section
/-! The gain step (R59): the rounding shift as one division and as a shift with the last bit added back, the range it keeps, and what
saturation does; from these O30. -/

namespace Sys2Proof.Machine

/-! ### The rounding shift in the integers -/

theorem shiftRound_succ (k : Nat) (x : Int) : shiftRound (k + 1) x = x / 2 ^ (k + 1) + x / 2 ^ k % 2 := rfl

theorem ediv_two_pow_succ (k : Nat) (x : Int) : x / 2 ^ (k + 1) = x / 2 ^ k / 2 := by
  rw [pow_succ, Int.ediv_ediv_of_nonneg (by positivity)]

/-- Only the last bit shifted out decides: one more before the last halving is the rounding. -/
theorem shiftRound_succ_eq_half (k : Nat) (x : Int) : shiftRound (k + 1) x = (x / 2 ^ k + 1) / 2 := by
  rw [shiftRound_succ, ediv_two_pow_succ]
  omega

/-- The rounding shift is one division rounded half toward positive infinity (R59). -/
theorem shiftRound_succ_eq_ediv (k : Nat) (x : Int) : shiftRound (k + 1) x = (x + 2 ^ k) / 2 ^ (k + 1) := by
  have hadd : (x + 2 ^ k) / 2 ^ k = x / 2 ^ k + 1 := by
    rw [Int.add_ediv_of_dvd_right dvd_rfl, Int.ediv_self (by positivity)]
  rw [shiftRound_succ_eq_half, ediv_two_pow_succ, hadd]

theorem ediv_two_pow_bounds {x : Int} {b : Int} (k : Nat) (hlo : -b ≤ x) (hhi : x < b) : -b ≤ x / 2 ^ k ∧ x / 2 ^ k < b := by
  have hpow : (1 : Int) ≤ 2 ^ k := one_le_pow₀ (by decide)
  constructor
  · rw [Int.le_ediv_iff_mul_le (by positivity)]
    nlinarith
  · rw [Int.ediv_lt_iff_lt_mul (by positivity)]
    nlinarith

/-! ### The rounding shift of a sample -/

theorem toInt_emod_two {w : Nat} (x : BitVec w) (hw : 0 < w) : x.toInt % 2 = if x.getLsbD 0 then 1 else 0 := by
  have htwo : (2 : Int) ∣ ((2 ^ w : Nat) : Int) := by exact_mod_cast dvd_pow_self 2 hw.ne'
  have hnat : x.toInt % 2 = (x.toNat : Int) % 2 := by
    rw [BitVec.toInt_eq_toNat_bmod, ← Int.emod_emod_of_dvd _ htwo, Int.bmod_emod, Int.emod_emod_of_dvd _ htwo]
  rw [hnat, ← BitVec.testBit_toNat, Nat.testBit_zero]
  split_ifs with hbit
  · have := of_decide_eq_true hbit
    omega
  · have := of_decide_eq_false (Bool.eq_false_iff.mpr hbit)
    omega

/-- Bit `k` of a word is the last bit of its value shifted right arithmetically by `k` places. -/
theorem toInt_ediv_two_pow_emod_two {w k : Nat} (x : BitVec w) (hk : k < w) :
    x.toInt / 2 ^ k % 2 = if x.getLsbD k then 1 else 0 := by
  have hshift : (x.sshiftRight k).toInt = x.toInt / 2 ^ k := by
    rw [BitVec.toInt_sshiftRight, Int.shiftRight_eq_div_pow, Nat.cast_pow, Nat.cast_ofNat]
  have hbit : (x.sshiftRight k).getLsbD 0 = x.getLsbD k := by
    rw [BitVec.getLsbD_sshiftRight]
    simp [hk, Nat.ne_zero_of_lt hk]
  rw [← hshift, toInt_emod_two _ (Nat.zero_lt_of_lt hk), hbit]

theorem toInt_sample_bounds (x : Sample) : -32768 ≤ x.toInt ∧ x.toInt < 32768 := by
  have := x.le_toInt
  have := x.toInt_lt
  omega

/-- A sample shifted by one place or more has a value no saturation can reach. -/
theorem shiftRound_succ_bounds (k : Nat) (x : Sample) :
    -16384 ≤ shiftRound (k + 1) x.toInt ∧ shiftRound (k + 1) x.toInt ≤ 16384 := by
  obtain ⟨hlo, hhi⟩ := toInt_sample_bounds x
  obtain ⟨hqlo, hqhi⟩ := ediv_two_pow_bounds k hlo hhi
  rw [shiftRound_succ_eq_half]
  omega

/-! ### Samples of a value -/

theorem toInt_sample_of_bounds {v : Int} (hlo : -32768 ≤ v) (hhi : v ≤ 32767) : (BitVec.ofInt 16 v).toInt = v := by
  rw [BitVec.toInt_ofInt, Int.bmod_def]
  omega

theorem toInt_saturate (v : Int) : (saturate v).toInt = max (-32768) (min 32767 v) := by
  unfold saturate
  rw [toInt_sample_of_bounds] <;> split_ifs <;> omega

/-! ### The gain step by the sign of its operand -/

theorem gainStep_zero (x : Sample) : gainStep 0 x = x := by
  apply BitVec.eq_of_toInt_eq
  obtain ⟨hlo, hhi⟩ := toInt_sample_bounds x
  rw [gainStep, if_neg (lt_irrefl 0), toInt_saturate, Int.natAbs_zero, pow_zero, mul_one]
  omega

theorem toInt_gainStep_neg (k : Nat) (x : Sample) : (gainStep (-((k + 1 : Nat) : Int)) x).toInt = shiftRound (k + 1) x.toInt := by
  obtain ⟨hlo, hhi⟩ := shiftRound_succ_bounds k x
  rw [gainStep, if_pos (by omega), Int.natAbs_neg, Int.natAbs_natCast, toInt_sample_of_bounds (by omega) (by omega)]

theorem toInt_gainStep_nat (k : Nat) (x : Sample) : (gainStep k x).toInt = max (-32768) (min 32767 (x.toInt * 2 ^ k)) := by
  rw [gainStep, if_neg (by omega), Int.natAbs_natCast, toInt_saturate]

/-- Settles O30: a division is the rounding shift, which no saturation reaches (`toInt_gainStep_neg`), and so the division rounded half up
(`shiftRound_succ_eq_ediv`) and the shift with its last bit added; a multiplication saturates (`toInt_gainStep_nat`). -/
theorem gainStepRoundsHalfUp : Obligations.GainStepRoundsHalfUp := by
  unfold Obligations.GainStepRoundsHalfUp
  intro x
  refine ⟨gainStep_zero x, fun k hk hk8 => ?_, ?_, fun k _ _ => toInt_gainStep_nat k x⟩
  · obtain ⟨j, rfl⟩ : ∃ j, k = j + 1 := ⟨k - 1, by omega⟩
    rw [toInt_gainStep_neg, Nat.add_sub_cancel]
    refine ⟨?_, shiftRound_succ_eq_ediv j _⟩
    rw [shiftRound_succ, toInt_ediv_two_pow_emod_two x (by omega)]
  · exact toInt_gainStep_neg 0 x ▸ shiftRound_succ_bounds 0 x

end Sys2Proof.Machine
end

section
/-! ABANDON DEPOSIT (R55) by whether a deposit is open; from these O24. -/

namespace Sys2Proof.Machine

variable {s : State}

/-- The request does not ask whether the deposit it closes is broken. -/
theorem exec_abandonDeposit_open {d : Deposit} (h : s.Hears .media) (hd : s.deposit = some d) :
    exec .abandonDeposit s = .next ((s.setDeposit none).answer .media .ok []) := by
  obtain ⟨hlow, hignoring, hjob⟩ := h
  show execAbandonDeposit s = _
  rw [execAbandonDeposit, State.takeMedia_heard hlow hignoring (hjob rfl), hd, Option.isSome_some, if_pos rfl]

theorem exec_abandonDeposit_none (h : s.Hears .media) (hd : s.deposit = none) :
    exec .abandonDeposit s = .next (s.answer .media .none []) := by
  obtain ⟨hlow, hignoring, hjob⟩ := h
  show execAbandonDeposit s = _
  rw [execAbandonDeposit, State.takeMedia_heard hlow hignoring (hjob rfl), hd, Option.isSome_none, if_neg Bool.false_ne_true,
    State.refuse]

/-- Settles O24: a heard request closes an open deposit (`exec_abandonDeposit_open`) and is refused with none
(`exec_abandonDeposit_none`). -/
theorem abandonDepositCloses : Obligations.AbandonDepositCloses := by
  unfold Obligations.AbandonDepositCloses
  exact fun s h => ⟨fun d => exec_abandonDeposit_open h, exec_abandonDeposit_none h⟩

end Sys2Proof.Machine
end

section
/-! What a command can do, said once: a command's effect is a chain of moves (`exec_moves`). A move is an operation on one line's record, an
operation on the Sample Store with the line whose ring it reaches, or an operation on the rest of the part, each with the checks that its
command has made by then. The laws of the part are proved move by move. -/

namespace Sys2Proof.Machine

/-! ### The link of a request -/

/-- The link that brings a request; none for what the part does of itself. A COMMIT DEPOSIT or FILL CELLS is a Media Link request whatever
part of its lines it takes (log entry 18). -/
def Instr.link : Instr → Option Link
  | .commitDeposit _ => some .media
  | .fillCells _ _ _ _ _ _ => some .media
  | c => (frameOf c).map Prod.fst

/-- The command may reach what belongs to link `k`: it is no request of the other link. -/
def Instr.Reaches (c : Instr) (k : Link) : Prop := Instr.link c = none ∨ Instr.link c = some k

theorem Instr.link_of_frameOf {c : Instr} {k : Link} {bytes : List Byte} (h : frameOf c = some (k, bytes)) :
    Instr.link c = some k := by
  cases c
  case commitDeposit n =>
    by_cases hn : n = 4 <;> simp [frameOf, hn] at h
    rw [← h.1]
    rfl
  case fillCells mask source time control gain n =>
    by_cases hn : n = 4 <;> simp [frameOf, hn] at h
    rw [← h.1]
    rfl
  all_goals simp [Instr.link, h]

/-! ### Moves of one line -/

/-- The operations on one line's record, with what its command or its condition has checked. -/
inductive Line.Move (c : Instr) (programs : List ProgramRecord) (L : Line) : Line → Prop
  | requestMode (m : LineMode) (he : L.enabled = true) : Line.Move c programs L (L.requestMode m)
  | supervise (control attenuation : Byte) (hc : ∃ line, c = .setSupervision line control attenuation) :
    Line.Move c programs L (L.supervise control attenuation)
  | startContext (record : Nat) (v : Level) (he : L.enabled = true) (hm : L.mode = .voice)
    (hf : v = .background ∨ L.foreground = none ∧ L.ring.holdsCid = false) :
    Line.Move c programs L (L.startContext record (programAt programs record) v).1
  | stopProgram (v : Level) (x : Context) (hx : L.contextAt v = some x) (hk : x.isProgram = true) :
    Line.Move c programs L (L.stopProgram v).1
  | stopAlert (v : Level) (x : Context) (hx : L.contextAt v = some x) (hk : x.isAlert = true) : Line.Move c programs L L.stopAlert.1
  | loadMessage (m : CidMessage) (he : L.enabled = true) : Line.Move c programs L (L.loadMessage m)
  | startAlert (entry : Byte) (h : firstFailing (cidAlertChecks L entry) = none) : Line.Move c programs L (L.startAlert entry.toNat)
  | startRinging (on off : Word16) (bursts cid : Byte) (delay : Word16) (h : firstFailing (ringStartChecks L on off cid delay) = none) :
    Line.Move c programs L (L.startRinging on off bursts cid delay)
  | stopRinging (h : L.ring.state ≠ .idle) : Line.Move c programs L L.stopRinging.1
  | setPlayout (v : RawPlayout) : Line.Move c programs L (L.setPlayout v)
  | addSlip (slip : Byte) (he : L.enabled = true) : Line.Move c programs L (L.addSlip slip)
  | readOut (r : Nat) (he : L.enabled = true) (hr : r ≤ L.unread) : Line.Move c programs L (L.readOut r)
  | clearStats : Line.Move c programs L { L with stats := .zero }
  | start (h : L.startDue = true) : Line.Move c programs L L.start
  | takeDetector (h : L.detectorDue = true) : Line.Move c programs L (L.takeDetector programs).1
  | takeHook (h : L.hookDue = true) : Line.Move c programs L (L.takeHook programs).1
  | takeRing (h : L.ringDue = true) : Line.Move c programs L L.takeRing.1

/-! ### Moves of the part -/

/-- The state that a DEVICE RESET leaves, with the queue of commands `q` (R1). -/
def State.afterReset (low cFrame mFrame : Bool) (q : List Instr) : State :=
  { State.reset with
    resetLow := low, cLink := { LinkState.reset with ignoring := cFrame }, mLink := { LinkState.reset with ignoring := mFrame }
    pending := q }

/-- How a request leaves the deposit buffer: closed, newly bound, with samples received, or broken (4.2 to 4.4). -/
inductive Deposit.Becomes : Option Deposit → Option Deposit → Prop
  | closed (d : Option Deposit) : Deposit.Becomes d none
  | opened (d : Option Deposit) (mask : Byte) (source : Fin 4) (time : Word32) (control gain : Byte) :
    Deposit.Becomes d (some (Deposit.opened mask source time control gain))
  | appended (d : Deposit) (samples : List Sample) : Deposit.Becomes (some d) (some (d.append samples))
  | broken (d : Option Deposit) : Deposit.Becomes d (d.map fun x => { x with broken := true })

/-- The write that a commit of the open deposit makes, or a fill (R54, R67). -/
inductive State.Makes (s : State) : Write → Prop
  | deposit (d : Deposit) (hd : s.deposit = some d) (hroom : d.room ≤ d.samples.length) : State.Makes s d.write
  | fill (m : Fin 4) (time : Word32) (control gain : Byte) : State.Makes s (fillWrite s.fillPattern m time control gain)

/-- The commands that may take the load of line `l`: its rows, and a frame that finds it left over (log entry 3). -/
def Instr.Loads (c : Instr) (l : Fin 4) : Prop := c ∈ loadRows l ∨ ∃ hrx hook, c = .highwayFrame hrx hook

/-- The record of line `l` in place once its due capture store is taken (R95). -/
def State.stored (s : State) (l : Fin 4) : State :=
  (s.setStore (s.store.write (s.line l).writePlace ((s.line l).captureRecord s.programs s.endedCell))).setLine l
    { (s.line l).stored with due := { (s.line l).due with capture := false } }

/-- Line and store once the due load of line `l` is taken (R74). -/
def State.loaded (s : State) (l : Fin 4) : State :=
  (s.setStore (s.store.write (s.line l).slotCell .reset)).setLine l ((s.line l).loadCell (s.loadInput l)).1

/-- The moves of the part under command `c`. -/
inductive Move (c : Instr) (s : State) : State → Prop
  | reset (low cFrame mFrame : Bool) (hc : c = .deviceReset low cFrame mFrame) : Move c s (State.afterReset low cFrame mFrame s.pending)
  | link (k : Link) (x : LinkState) (hc : Instr.Reaches c k) : Move c s (s.setLink k x)
  | sequence (b : Bool) (hc : Instr.Reaches c .media) : Move c s { s with sequence := b }
  | timebase : Move c s { s with timebase := .running }
  | tones (start : Byte) (fields : List Word16) (h : toneStartOk start = true) : Move c s (s.writeFields start fields)
  | program (record control repeats count : Byte) (segments gs : List RawSegment) (hc : c = .writeProgram record control repeats count segments)
    (hgs : gs.length ≤ 8) (h : firstFailing (writeProgramChecks s record gs) = none) :
    Move c s { s with programs := s.programs.set record.toNat (programRecord control repeats gs) }
  | deposit (d : Option Deposit) (hc : Instr.Reaches c .media) (hd : Deposit.Becomes s.deposit d) : Move c s (s.setDeposit d)
  | fillPattern (xs : List Sample) (hc : ∃ count samples, c = .loadFillPattern count samples) (hx : xs.length = 40) :
    Move c s { s with fillPattern := xs }
  | beginWrites (w : Write) (ls : List (Fin 4)) (hc : Instr.Reaches c .media) (hw : s.Makes w) : Move c s (s.beginWrites w ls)
  | writeLine (j : WriteJob) (l : Fin 4) (hc : Instr.Reaches c .media) (hj : s.job = some j) : Move c s (s.writeLine j.write l)
  | goOn (j : WriteJob) (left : List (Fin 4)) (report : List Byte) (hc : Instr.Reaches c .media) (hj : s.job = some j) :
    Move c s { s with job := some ⟨j.write, left, report⟩ }
  | finish (hc : Instr.Reaches c .media) : Move c s { s with job := none }
  | readEvents (r : Nat) (hc : Instr.Reaches c .control) : Move c s { s with events := s.events.drop r }
  | arrive (r : EventRecord) (hc : Instr.Reaches c .control) (hr : r.isOverflow = false) : Move c s (s.arrive r)
  | configure (l : Fin 4) (p q : RingEntry) (hc : ∃ line pb pl cb cl, c = .configureLine line pb pl cb cl)
    (h : firstFailing (configureChecks s l p q) = none) : Move c s (s.setLine l ((s.line l).withRings p q))
  | enable (l : Fin 4) (hc : ∃ line, c = .enableLine line) (he : (s.line l).enabled = false) (hp : (s.line l).playRing.isSome = true)
    (hq : (s.line l).capRing.isSome = true) : Move c s ((s.setStore (s.store.emptyRing (s.line l))).setLine l (s.line l).setUp)
  | disable (l : Fin 4) (hc : ∃ line, c = .disableLine line) (he : (s.line l).enabled = true) :
    Move c s ((s.setStore (s.store.emptyRing (s.line l))).setLine l (s.line l).shutDown)
  | clear (l : Fin 4) (he : (s.line l).enabled = true) :
    Move c s ((s.setStore (s.store.emptyRing (s.line l))).setLine l (s.line l).clear)
  | line (l : Fin 4) (L : Line) (h : Line.Move c s.programs (s.line l) L) : Move c s (s.setLine l L)
  | store (l : Fin 4) (h : (s.line l).captureDue = true) : Move c s (s.stored l)
  | load (l : Fin 4) (hc : Instr.Loads c l) (h : (s.line l).loadDue = true) : Move c s (s.loaded l)
  | boundary (h : s.boundaryDue = true) : Move c s s.boundary
  | frame (hrx : BitVec 256) (hook : Four Bool) (hc : c = .highwayFrame hrx hook) (ht : s.timebase = .running) (h : s.NothingDue) :
    Move c s (s.frameStep (hrxSamples hrx) hook)

/-- A chain of moves. -/
def Moves (c : Instr) : State → State → Prop := Relation.ReflTransGen (Move c)

theorem Moves.refl {c : Instr} {s : State} : Moves c s s := Relation.ReflTransGen.refl

theorem Moves.tail {c : Instr} {s t u : State} (h : Moves c s t) (g : Move c t u) : Moves c s u := Relation.ReflTransGen.tail h g

theorem Moves.trans {c : Instr} {s t u : State} (h : Moves c s t) (g : Moves c t u) : Moves c s u := Relation.ReflTransGen.trans h g

theorem Move.moves {c : Instr} {s t : State} (h : Move c s t) : Moves c s t := Relation.ReflTransGen.single h

/-- A law that every move keeps is kept by every chain. -/
theorem Moves.keeps {P : State → Prop} {c : Instr} (hP : ∀ {s t : State}, Move c s t → P s → P t) {s t : State} (h : Moves c s t)
    (hs : P s) : P t := by
  induction h with
  | refl => exact hs
  | tail _ hm ih => exact hP hm ih

end Sys2Proof.Machine
end

section
/-! What the works of a line reach: contexts, rendering, ringing, hook and detector steps reach the signal and supervision fields alone, so
playout, capture and the partition entries are as before; what is left due afterwards; and that no event of a line queues an OVERFLOW
record. -/

namespace Sys2Proof.Machine

/-! ### The fields of signals and supervision -/

/-- `M` differs from `L` in the mode, the detector, the contexts, ringing and the CID buffer alone (chapters 7 to 10, but for the Hook
Monitor); a ring step may have been given up, and no ringing has begun. -/
def Line.Calls (L M : Line) : Prop :=
  ∃ mode pendingMode detector foreground background ring cid x,
    M = { L with
      mode := mode, pendingMode := pendingMode, detector := detector, foreground := foreground, background := background
      ring := ring, cid := cid, due := { L.due with ring := x } } ∧
    (x = true → L.due.ring = true) ∧ (L.ring.state = .idle → ring.state = .idle)

theorem Line.Calls.refl (L : Line) : Line.Calls L L :=
  ⟨L.mode, L.pendingMode, L.detector, L.foreground, L.background, L.ring, L.cid, L.due.ring, rfl, id, id⟩

theorem Line.Calls.trans {L M N : Line} (h : Line.Calls L M) (g : Line.Calls M N) : Line.Calls L N := by
  obtain ⟨_, _, _, _, _, _, _, _, rfl, hx, hi⟩ := h
  obtain ⟨_, _, _, _, _, _, _, _, rfl, hy, hj⟩ := g
  exact ⟨_, _, _, _, _, _, _, _, rfl, hx ∘ hy, hj ∘ hi⟩

section Lines

variable (L : Line)

theorem Line.dropForeground_calls : Line.Calls L L.dropForeground := ⟨_, _, _, _, _, _, _, _, rfl, id, id⟩

theorem Line.dropBackground_calls : Line.Calls L L.dropBackground := ⟨_, _, _, _, _, _, _, _, rfl, id, id⟩

theorem Line.putForeground_calls (c : Context) : Line.Calls L (L.putForeground c) := ⟨_, _, _, _, _, _, _, _, rfl, id, id⟩

theorem Line.setContext_calls (v : Level) (c : Context) : Line.Calls L (L.setContext v c) := by
  cases v <;> exact ⟨_, _, _, _, _, _, _, _, rfl, id, id⟩

theorem Line.dropContext_calls (v : Level) : Line.Calls L (L.dropContext v) := by
  cases v <;> exact ⟨_, _, _, _, _, _, _, _, rfl, id, id⟩

theorem Line.setRing_calls (r : RingState) (h : L.ring.state ≠ .idle) : Line.Calls L (L.setRing r) :=
  ⟨_, _, _, _, _, _, _, _, rfl, id, fun hi => absurd hi h⟩

theorem Line.ringIdle_calls : Line.Calls L L.ringIdle := ⟨_, _, _, _, _, _, _, _, rfl, (nomatch ·), fun _ => rfl⟩

theorem Line.setDigits_calls (m : DigitMachine) : Line.Calls L (L.setDigits m) := ⟨_, _, _, _, _, _, _, _, rfl, id, id⟩

theorem Line.endOnHookCid_calls : Line.Calls L L.endOnHookCid := by
  unfold Line.endOnHookCid
  dsimp only
  split <;> exact ⟨_, _, _, _, _, _, _, _, rfl, id, id⟩

theorem Line.endOffHookCid_calls : Line.Calls L L.endOffHookCid := ⟨_, _, _, _, _, _, _, _, rfl, id, id⟩

theorem Line.afterCid_calls : Line.Calls L L.afterCid.1 := by
  unfold Line.afterCid
  split
  · split
    · exact L.ringIdle_calls
    · exact L.setRing_calls _ (by simp_all)
  · split
    · exact L.ringIdle_calls
    · exact L.setRing_calls _ (by simp_all)
  · exact .refl L

theorem Line.endRinging_calls (c : AbortCause) : Line.Calls L (L.endRinging c).1 := by
  unfold Line.endRinging
  split
  · exact L.endOnHookCid_calls.trans (Line.ringIdle_calls _)
  · exact L.ringIdle_calls

theorem Line.modeForeground_calls : Line.Calls L L.modeForeground.1 := by
  unfold Line.modeForeground
  split
  · exact L.endOnHookCid_calls.trans (Line.afterCid_calls _)
  · split
    · split
      · exact L.endOffHookCid_calls
      · exact L.dropForeground_calls
      · exact L.dropForeground_calls
    · exact .refl L

theorem Line.modeBackground_calls : Line.Calls L L.modeBackground.1 := by
  unfold Line.modeBackground
  split
  · exact L.dropBackground_calls
  · exact .refl L

theorem Line.stageMode_calls : Line.Calls L L.stageMode.1 := by
  unfold Line.stageMode
  split
  · exact L.modeForeground_calls.trans ((Line.modeBackground_calls _).trans ⟨_, _, _, _, _, _, _, _, rfl, id, id⟩)
  · exact .refl L

theorem Line.renderStep_calls (tones : List ToneEntry) (programs : List ProgramRecord) (v : Level) (c : Context) :
    Line.Calls L (L.renderStep tones programs v c).1 := by
  unfold Line.renderStep
  split
  · split
    · exact L.setContext_calls v _
    · exact L.dropContext_calls v
  · dsimp only
    split
    · exact L.endOnHookCid_calls.trans (Line.afterCid_calls _)
    · exact L.setContext_calls v _
  · split
    · exact L.setContext_calls v _
    · exact L.endOffHookCid_calls

theorem Line.autoFaxAction_calls : Line.Calls L L.autoFaxAction := by
  unfold Line.autoFaxAction
  split
  · exact ⟨_, _, _, _, _, _, _, _, rfl, id, id⟩
  · exact .refl L

theorem Line.stepCalling_calls (c : CellClass) : Line.Calls L (L.stepCalling c).1 := by
  unfold Line.stepCalling
  dsimp only
  have h : Line.Calls L { L with detector := { L.detector with
      faxCalling := runCount 100 (c == .faxCalling) L.detector.faxCalling } } := ⟨_, _, _, _, _, _, _, _, rfl, id, id⟩
  split
  · exact h.trans (Line.autoFaxAction_calls _)
  · exact h

theorem Line.stepCaptureAnswer_calls (c : CellClass) : Line.Calls L (L.stepCaptureAnswer c).1 := by
  unfold Line.stepCaptureAnswer
  dsimp only
  have h : Line.Calls L { L with detector := { L.detector with
      captureAnswer := runCount 60 (c == .faxAnswer) L.detector.captureAnswer } } := ⟨_, _, _, _, _, _, _, _, rfl, id, id⟩
  split
  · exact h.trans (Line.autoFaxAction_calls _)
  · exact h

theorem Line.stepPlayoutAnswer_calls (c : CellClass) : Line.Calls L (L.stepPlayoutAnswer c).1 := by
  unfold Line.stepPlayoutAnswer
  dsimp only
  have h : Line.Calls L { L with detector := { L.detector with
      playoutAnswer := runCount 60 (c == .faxAnswer) L.detector.playoutAnswer } } := ⟨_, _, _, _, _, _, _, _, rfl, id, id⟩
  split
  · exact h.trans (Line.autoFaxAction_calls _)
  · exact h

theorem Line.stageFeed_calls (cell : List Sample) : Line.Calls L (L.stageFeed cell).1 := by
  unfold Line.stageFeed
  split
  · exact L.stepPlayoutAnswer_calls _
  · exact .refl L

theorem Line.cutBackground_calls (programs : List ProgramRecord) : Line.Calls L (L.cutBackground programs).1 := by
  unfold Line.cutBackground
  split
  · exact L.dropBackground_calls
  · exact .refl L

theorem Line.qualifyDigit_calls (programs : List ProgramRecord) (d : Digit) : Line.Calls L (L.qualifyDigit programs d).1 := by
  unfold Line.qualifyDigit
  split
  · exact ⟨_, _, _, _, _, _, _, _, rfl, id, id⟩
  · exact (L.setDigits_calls _).trans (Line.cutBackground_calls _ programs)

theorem Line.stepDigits_calls (programs : List ProgramRecord) (c : CellClass) : Line.Calls L (L.stepDigits programs c).1 := by
  unfold Line.stepDigits
  split
  · unfold Line.seekDigit
    dsimp only
    split
    · split
      · exact L.qualifyDigit_calls programs _
      · exact L.setDigits_calls _
    · exact L.setDigits_calls _
  · unfold Line.holdDigit
    dsimp only
    split
    · exact L.setDigits_calls _
    · split <;> exact L.setDigits_calls _

theorem Line.stepDetector_calls (programs : List ProgramRecord) (c : CellClass) : Line.Calls L (L.stepDetector programs c).1 := by
  unfold Line.stepDetector
  split
  · exact .refl L
  · exact (L.stepDigits_calls programs c).trans ((Line.stepCalling_calls _ c).trans (Line.stepCaptureAnswer_calls _ c))

theorem Line.endPlainBurst_calls (begun : Nat) (h : L.ring.state ≠ .idle) : Line.Calls L (L.endPlainBurst begun).1 := by
  unfold Line.endPlainBurst
  split
  · exact L.setRing_calls _ (by simp_all)
  · exact L.ringIdle_calls

theorem Line.endBurst_calls (begun : Nat) (h : L.ring.state ≠ .idle) : Line.Calls L (L.endBurst begun).1 := by
  unfold Line.endBurst
  split
  · split
    · exact L.setRing_calls _ (by simp_all)
    · exact L.endPlainBurst_calls begun h
  · exact L.endPlainBurst_calls begun h

theorem Line.stepRing_calls : Line.Calls L L.stepRing.1 := by
  unfold Line.stepRing
  split
  · exact .refl L
  · split
    · exact L.endBurst_calls _ (by simp_all)
    · exact L.setRing_calls _ (by simp_all)
  · split
    · exact L.setRing_calls _ (by simp_all)
    · exact L.setRing_calls _ (by simp_all)
  · split
    · exact (L.setRing_calls _ (by simp_all)).trans (Line.putForeground_calls _ _)
    · exact L.setRing_calls _ (by simp_all)
  · exact L.setRing_calls _ (by simp_all)

theorem Line.onHookContexts_calls : Line.Calls L L.onHookContexts.1 := by
  have hf : Line.Calls L L.onHookForeground.1 := by
    unfold Line.onHookForeground
    split
    · split
      · exact L.endOffHookCid_calls
      · exact L.dropForeground_calls
      · exact .refl L
    · exact .refl L
  refine hf.trans ?_
  show Line.Calls _ (Line.onHookBackground _).1
  unfold Line.onHookBackground
  split
  · exact Line.dropBackground_calls _
  · exact .refl _

/-- A hook step reaches the classifier and nothing else but signals and supervision. -/
theorem Line.stepHook_calls (programs : List ProgramRecord) (raw : Bool) :
    ∃ hook, Line.Calls { L with hook := hook } (L.stepHook programs raw).1 := by
  unfold Line.stepHook
  split
  case h_2 =>
    split
    · exact ⟨_, Line.endRinging_calls (L.setHook .offhook 0) .offHook⟩
    · exact ⟨_, .refl _⟩
  case h_5 => split <;> exact ⟨_, .refl _⟩
  case h_7 =>
    unfold Line.endBreak
    dsimp only
    split
    · exact ⟨_, .refl _⟩
    · split
      · split
        · exact ⟨_, Line.cutBackground_calls _ programs⟩
        · exact ⟨_, .refl _⟩
      · exact ⟨_, .refl _⟩
  case h_8 =>
    split
    · exact ⟨_, Line.onHookContexts_calls (L.setHook (.onhook 0) 0)⟩
    · exact ⟨_, .refl _⟩
  all_goals exact ⟨_, .refl _⟩

/-! ### What is left due -/

theorem Line.takeDetector_calls (programs : List ProgramRecord) :
    Line.Calls { L with due := { L.due with detector := false } } (L.takeDetector programs).1 := by
  obtain ⟨_, _, _, _, _, _, _, _, h, hx, hi⟩ := L.stepDetector_calls programs L.closedHalf.cls
  unfold Line.takeDetector
  dsimp only
  rw [h]
  exact ⟨_, _, _, _, _, _, _, _, rfl, hx, hi⟩

theorem Line.takeHook_calls (programs : List ProgramRecord) :
    ∃ hook, Line.Calls { L with hook := hook, due := { L.due with hook := false } } (L.takeHook programs).1 :=
  Line.stepHook_calls { L with due := { L.due with hook := false } } programs L.hookPin

theorem Line.takeRing_calls : Line.Calls { L with due := { L.due with ring := false } } L.takeRing.1 := Line.stepRing_calls _

/-- `M` differs from `L` in what the stages of a load reach before the half is loaded (5.2 to 5.4). -/
def Line.Staged (L M : Line) : Prop :=
  ∃ mode pendingMode anchors playout run repeatBuffer pendingSlip patience window stats background foreground cid ring detector x,
    M = { L with
      mode := mode, pendingMode := pendingMode, anchors := anchors, playout := playout, run := run, repeatBuffer := repeatBuffer
      pendingSlip := pendingSlip, patience := patience, window := window, stats := stats, background := background
      foreground := foreground, cid := cid, ring := ring, detector := detector, due := { L.due with ring := x } } ∧
    (x = true → L.due.ring = true) ∧ (L.ring.state = .idle → ring.state = .idle)

omit L in
theorem Line.Staged.trans {L M N : Line} (h : Line.Staged L M) (g : Line.Staged M N) : Line.Staged L N := by
  obtain ⟨_, _, _, _, _, _, _, _, _, _, _, _, _, _, _, _, rfl, hx, hi⟩ := h
  obtain ⟨_, _, _, _, _, _, _, _, _, _, _, _, _, _, _, _, rfl, hy, hj⟩ := g
  exact ⟨_, _, _, _, _, _, _, _, _, _, _, _, _, _, _, _, rfl, hx ∘ hy, hj ∘ hi⟩

omit L in
theorem Line.Calls.staged {L M : Line} (h : Line.Calls L M) : Line.Staged L M := by
  obtain ⟨_, _, _, _, _, _, _, _, rfl, hx, hi⟩ := h
  exact ⟨_, _, _, _, _, _, _, _, _, _, _, _, _, _, _, _, rfl, hx, hi⟩

theorem Line.stageContent_staged (slot : StoreCell) : Line.Staged L (L.stageContent slot) := by
  unfold Line.stageContent
  split
  · exact ⟨_, _, _, _, _, _, _, _, _, _, _, _, _, _, _, _, rfl, id, id⟩
  · unfold Line.emptyLoaded
    dsimp only
    split <;> exact ⟨_, _, _, _, _, _, _, _, _, _, _, _, _, _, _, _, rfl, id, id⟩

theorem Line.stageRender_staged (i : LoadInput) : Line.Staged L (L.stageRender i).1 := by
  unfold Line.stageRender
  split
  · dsimp only
    split
    · exact .trans ⟨_, _, _, _, _, _, _, _, _, _, _, _, _, _, _, _, rfl, id, id⟩ (Line.renderStep_calls _ _ _ _ _).staged
    · exact (Line.renderStep_calls _ _ _ _ _).staged
  · exact (Line.Calls.refl L).staged

/-- The first stage of content reaches the run, its statistics, the playout state, the anchors and the repeat buffer. -/
theorem Line.stageContent_frame (slot : StoreCell) : ∃ run stats playout anchors repeatBuffer,
    L.stageContent slot = { L with
      run := run, stats := stats, playout := playout, anchors := anchors, repeatBuffer := repeatBuffer } := by
  unfold Line.stageContent
  split
  · exact ⟨_, _, _, _, _, rfl⟩
  · unfold Line.emptyLoaded
    dsimp only
    split <;> exact ⟨_, _, _, _, _, rfl⟩

/-- Rendering reaches the statistics, and otherwise what belongs to the calls of a line. -/
theorem Line.stageRender_calls (i : LoadInput) : ∃ stats, Line.Calls { L with stats := stats } (L.stageRender i).1 := by
  unfold Line.stageRender
  split
  · dsimp only
    split
    · exact ⟨_, Line.renderStep_calls _ _ _ _ _⟩
    · exact ⟨_, Line.renderStep_calls _ _ _ _ _⟩
  · exact ⟨_, .refl _⟩

theorem Line.stageWindow_frame : ∃ pendingSlip window, L.stageWindow = { L with pendingSlip := pendingSlip, window := window } := by
  unfold Line.stageWindow
  split <;> exact ⟨_, _, rfl⟩

theorem Line.stageSlip_staged (output : Bool) (cell : List Sample) : Line.Staged L (L.stageSlip output cell) := by
  unfold Line.stageSlip
  split <;> exact ⟨_, _, _, _, _, _, _, _, _, _, _, _, _, _, _, _, rfl, id, id⟩

theorem Line.stageWindow_staged : Line.Staged L L.stageWindow := by
  unfold Line.stageWindow
  split <;> exact ⟨_, _, _, _, _, _, _, _, _, _, _, _, _, _, _, _, rfl, id, id⟩

/-- What a load reaches of its line: the stages leave the Line Controller but for the mode, the entries, the configuration, the capture side,
the hook side and the playing half (5.2 to 5.4). -/
theorem Line.loadCell_frame (i : LoadInput) : ∃ cell slip mark,
    Line.Staged { L.setHalf L.playing.other ⟨cell, L.horizon, slip⟩ with
      horizon := L.horizon + 40, hs := (L.hs + 1) % L.lp, mark := mark, due := { L.due with load := false } } (L.loadCell i).1 := by
  unfold Line.loadCell
  dsimp only
  generalize Line.finalCell _ i _ = cell
  generalize Line.carriesOutput _ = output
  generalize Line.slipOfCell _ output cell = slip
  have h := L.stageMode_calls.staged.trans ((Line.stageContent_staged _ i.slot).trans ((Line.stageRender_staged _ i).trans
    ((Line.stageSlip_staged _ output cell).trans (Line.stageFeed_calls _ cell).staged)))
  generalize (Line.stageFeed _ cell).1 = F at h ⊢
  obtain ⟨_, _, _, _, _, _, _, _, _, _, _, _, _, _, _, _, rfl, hx, hi⟩ := h
  obtain ⟨_, _, _, _, _, _, _, _, _, _, _, _, _, _, _, _, hw, hy, hj⟩ := Line.stageWindow_staged (Line.stageLoad _ cell slip)
  rw [hw]
  unfold Line.stageLoad Line.setHalf Line.touchMark at *
  dsimp only at *
  revert hy hj
  cases L.playing <;> exact fun hy hj => ⟨cell, slip, _, _, _, _, _, _, _, _, _, _, _, _, _, _, _, _, _, rfl, hx ∘ hy, hj ∘ hi⟩

end Lines

/-! ### Records of a line's events -/

/-- The event is no OVERFLOW, which only the queue itself makes (R179). -/
def Event.plain : Event → Bool
  | .overflow _ => false
  | _ => true

/-- No event of these is an OVERFLOW. -/
def Plain (es : List Event) : Prop := ∀ e ∈ es, e.plain = true

theorem isOverflow_of_plain {l : Option (Fin 4)} {stamp : Word32} {e : Event} (h : e.plain = true) :
    (⟨e, l, stamp⟩ : EventRecord).isOverflow = false := by
  cases e <;> simp_all [Event.plain, EventRecord.isOverflow]

@[simp] theorem plain_nil : Plain [] := fun _ h => nomatch h

@[simp] theorem plain_cons {e : Event} {es : List Event} : Plain (e :: es) ↔ e.plain = true ∧ Plain es := List.forall_mem_cons

@[simp] theorem plain_append {as bs : List Event} : Plain (as ++ bs) ↔ Plain as ∧ Plain bs := List.forall_mem_append

section Records

variable (L : Line)

theorem Line.afterCid_plain : Plain L.afterCid.2 := by
  unfold Line.afterCid
  split
  · split <;> simp [Event.plain]
  · split <;> simp [Event.plain]
  · exact plain_nil

theorem Line.endRinging_plain (c : AbortCause) : Plain (L.endRinging c).2 := by
  unfold Line.endRinging
  split <;> simp [Event.plain]

theorem Line.modeForeground_plain : Plain L.modeForeground.2 := by
  unfold Line.modeForeground
  split
  · exact plain_cons.mpr ⟨rfl, Line.afterCid_plain _⟩
  · split
    · split <;> simp [Event.plain]
    · exact plain_nil

theorem Line.modeBackground_plain : Plain L.modeBackground.2 := by
  unfold Line.modeBackground
  split <;> simp [Event.plain]

theorem Line.resetDetector_plain : Plain L.resetDetector.2 := by
  unfold Line.resetDetector
  dsimp only
  split <;> simp [Event.plain]

theorem Line.stageMode_plain : Plain L.stageMode.2 := by
  unfold Line.stageMode
  split
  · unfold Line.changeMode
    simp only [plain_append, plain_cons]
    exact ⟨⟨⟨L.modeForeground_plain, Line.modeBackground_plain _⟩, Line.resetDetector_plain _⟩, rfl, plain_nil⟩
  · exact plain_nil

theorem Line.alertNext_plain {tones : List ToneEntry} {r : AlertRun} {e : Event} (h : L.alertNext tones r = .inr e) :
    e.plain = true := by
  unfold Line.alertNext at h
  split at h <;> (try dsimp only at h) <;> split at h <;> cases h <;> rfl

theorem Line.renderStep_plain (tones : List ToneEntry) (programs : List ProgramRecord) (v : Level) (c : Context) :
    Plain (L.renderStep tones programs v c).2 := by
  unfold Line.renderStep
  split
  · split <;> simp [Event.plain]
  · dsimp only
    split
    · exact plain_cons.mpr ⟨rfl, Line.afterCid_plain _⟩
    · exact plain_nil
  · split
    · exact plain_nil
    · exact plain_cons.mpr ⟨L.alertNext_plain (by assumption), plain_nil⟩

theorem Line.stageRender_plain (i : LoadInput) : Plain (L.stageRender i).2 := by
  unfold Line.stageRender
  split
  · exact Line.renderStep_plain _ _ _ _ _
  · exact plain_nil

theorem Line.stageFeed_plain (cell : List Sample) : Plain (L.stageFeed cell).2 := by
  unfold Line.stageFeed
  split
  · unfold Line.stepPlayoutAnswer
    dsimp only
    split <;> simp [Event.plain]
  · exact plain_nil

theorem Line.loadCell_plain (i : LoadInput) : Plain (L.loadCell i).2 := by
  unfold Line.loadCell
  simp only [plain_append]
  exact ⟨⟨L.stageMode_plain, Line.stageRender_plain _ i⟩, Line.stageFeed_plain _ _⟩

theorem Line.cutBackground_plain (programs : List ProgramRecord) : Plain (L.cutBackground programs).2 := by
  unfold Line.cutBackground
  split <;> simp [Event.plain]

theorem Line.stepDigits_plain (programs : List ProgramRecord) (c : CellClass) : Plain (L.stepDigits programs c).2 := by
  unfold Line.stepDigits
  split
  · unfold Line.seekDigit
    dsimp only
    split
    · split
      · unfold Line.qualifyDigit
        split
        · exact plain_nil
        · exact plain_cons.mpr ⟨rfl, Line.cutBackground_plain _ _⟩
      · exact plain_nil
    · exact plain_nil
  · unfold Line.holdDigit
    dsimp only
    split
    · exact plain_nil
    · split
      · split <;> simp [Event.plain]
      · exact plain_nil

theorem Line.takeDetector_plain (programs : List ProgramRecord) : Plain (L.takeDetector programs).2 := by
  unfold Line.takeDetector Line.stepDetector
  split
  · exact plain_nil
  · simp only [plain_append]
    refine ⟨⟨L.stepDigits_plain _ _, ?_⟩, ?_⟩
    · unfold Line.stepCalling
      dsimp only
      split <;> simp [Event.plain]
    · unfold Line.stepCaptureAnswer
      dsimp only
      split <;> simp [Event.plain]

theorem dialled_plain (n : Nat) : Plain (dialled n) := by
  unfold dialled
  split
  · exact plain_nil
  · split
    · simp [Event.plain]
    · split <;> simp [Event.plain]

theorem Line.onHookContexts_plain : Plain L.onHookContexts.2 := by
  unfold Line.onHookContexts
  simp only [plain_append]
  constructor
  · unfold Line.onHookForeground
    split
    · split <;> simp [Event.plain]
    · exact plain_nil
  · unfold Line.onHookBackground
    split <;> simp [Event.plain]

theorem Line.endBreak_plain (programs : List ProgramRecord) (b : Nat) (ret : HookReturn) : Plain (L.endBreak programs b ret).2 := by
  unfold Line.endBreak
  split
  · exact plain_nil
  · split
    · dsimp only
      split
      · exact Line.cutBackground_plain _ _
      · exact plain_nil
    · simpa [Event.plain] using dialled_plain _

theorem Line.takeHook_plain (programs : List ProgramRecord) : Plain (L.takeHook programs).2 := by
  unfold Line.takeHook Line.stepHook
  split
  case h_2 =>
    split
    · exact plain_cons.mpr ⟨rfl, Line.endRinging_plain _ _⟩
    · exact plain_nil
  case h_5 =>
    split
    · exact dialled_plain _
    · exact plain_nil
  case h_7 => exact Line.endBreak_plain _ _ _ _
  case h_8 =>
    split
    · exact plain_cons.mpr ⟨rfl, Line.onHookContexts_plain _⟩
    · exact plain_nil
  all_goals exact plain_nil

theorem Line.takeRing_plain : Plain L.takeRing.2 := by
  unfold Line.takeRing Line.stepRing
  split
  case h_2 =>
    split
    · unfold Line.endBurst Line.endPlainBurst
      split <;> (try split) <;> (try split) <;> simp [Event.plain]
    · exact plain_nil
  case h_3 => split <;> exact plain_nil
  case h_4 => split <;> exact plain_nil
  all_goals exact plain_nil

theorem Line.startContext_plain (record : Nat) (p : ProgramRecord) (v : Level) : Plain (L.startContext record p v).2 := by
  cases v
  · unfold Line.startContext
    dsimp only
    split <;> simp [Event.plain]
  · exact plain_nil

theorem Line.stopProgram_plain (v : Level) : Plain (L.stopProgram v).2 := by
  cases v <;> simp [Line.stopProgram, Event.plain]

theorem Line.stopRinging_plain : Plain L.stopRinging.2 := by
  simpa [Line.stopRinging, Event.plain] using L.endRinging_plain .stop

end Records

end Sys2Proof.Machine
end

section
/-! The works of a boundary on their line: which line each reaches, that each clears its own flag and raises none, so that a frame finds
nothing due once it has taken all that is left over (log entry 3). -/

namespace Sys2Proof.Machine

/-! ### The line that a work reaches -/

section Steps

variable (s : State) (l k : Fin 4)

theorem State.line_startStep : (s.startStep l).line k = if k = l ∧ (s.line l).startDue = true then (s.line l).start else s.line k := by
  unfold State.startStep
  by_cases h : (s.line l).startDue = true <;> simp [h, State.line_setLine]

/-- The pulse that a store may owe reaches the Media Link alone. -/
theorem State.captureStep_eq : s.captureStep l = s ∨ (s.line l).captureDue = true ∧
    (s.captureStep l = s.stored l ∨ s.captureStep l = (s.stored l).setLink .media { s.mLink with irq := s.mLink.irq.owe 4 }) := by
  unfold State.captureStep
  split
  · refine .inr ⟨by assumption, ?_⟩
    unfold State.storeCapture
    dsimp only
    split
    · exact .inr rfl
    · exact .inl rfl
  · exact .inl rfl

theorem State.line_captureStep : (s.captureStep l).line k =
    if k = l ∧ (s.line l).captureDue = true then { (s.line l).stored with due := { (s.line l).due with capture := false } }
    else s.line k := by
  unfold State.captureStep State.storeCapture
  dsimp only
  by_cases h : (s.line l).captureDue = true <;> by_cases hp : (s.line l).owesPulse = true <;> simp [h, hp, State.line_setLine]

theorem State.line_detectorStep : (s.detectorStep l).line k =
    if k = l ∧ (s.line l).detectorDue = true then ((s.line l).takeDetector s.programs).1 else s.line k := by
  unfold State.detectorStep
  by_cases h : (s.line l).detectorDue = true <;> simp [h, State.line_commitLine]

theorem State.line_hookStep : (s.hookStep l).line k =
    if k = l ∧ (s.line l).hookDue = true then ((s.line l).takeHook s.programs).1 else s.line k := by
  unfold State.hookStep
  by_cases h : (s.line l).hookDue = true <;> simp [h, State.line_commitLine]

theorem State.line_ringStep : (s.ringStep l).line k =
    if k = l ∧ (s.line l).ringDue = true then (s.line l).takeRing.1 else s.line k := by
  unfold State.ringStep
  by_cases h : (s.line l).ringDue = true <;> simp [h, State.line_commitLine]

theorem State.line_loadStep : (s.loadStep l).line k =
    if k = l ∧ (s.line l).loadDue = true then ((s.line l).loadCell (s.loadInput l)).1 else s.line k := by
  unfold State.loadStep State.loadLine
  by_cases h : (s.line l).loadDue = true <;> simp [h, State.line_commitLine]

end Steps

/-! ### What stays due -/

/-- `M` is enabled and started as `L` is, and has no work due that `L` has not. -/
structure Line.Eases (L M : Line) : Prop where
  enabled : M.enabled = L.enabled
  started : M.started = L.started
  start : M.due.start = true → L.due.start = true
  load : M.due.load = true → L.due.load = true
  capture : M.due.capture = true → L.due.capture = true
  detector : M.due.detector = true → L.due.detector = true
  hook : M.due.hook = true → L.due.hook = true
  ring : M.due.ring = true → L.due.ring = true

theorem Line.Eases.refl (L : Line) : Line.Eases L L := ⟨rfl, rfl, id, id, id, id, id, id⟩

theorem Line.Eases.trans {L M N : Line} (h : Line.Eases L M) (g : Line.Eases M N) : Line.Eases L N :=
  ⟨g.enabled.trans h.enabled, g.started.trans h.started, h.start ∘ g.start, h.load ∘ g.load, h.capture ∘ g.capture,
    h.detector ∘ g.detector, h.hook ∘ g.hook, h.ring ∘ g.ring⟩

theorem Line.Calls.eases {L M : Line} (h : Line.Calls L M) : Line.Eases L M := by
  obtain ⟨_, _, _, _, _, _, _, _, rfl, hx, -⟩ := h
  exact ⟨rfl, rfl, id, id, id, id, id, hx⟩

theorem Line.Staged.eases {L M : Line} (h : Line.Staged L M) : Line.Eases L M := by
  obtain ⟨_, _, _, _, _, _, _, _, _, _, _, _, _, _, _, _, rfl, hx, -⟩ := h
  exact ⟨rfl, rfl, id, id, id, id, id, hx⟩

section Due

variable {L M : Line}

theorem Line.Eases.startDue (h : Line.Eases L M) (hd : L.startDue = false) : M.startDue = false := by
  unfold Line.startDue at hd ⊢
  rw [h.enabled, h.started]
  cases hm : M.due.start
  · simp
  · rw [← hd, h.start hm]

theorem Line.Eases.loadDue (h : Line.Eases L M) (hd : L.loadDue = false) : M.loadDue = false := by
  unfold Line.loadDue at hd ⊢
  rw [h.enabled, h.started]
  cases hm : M.due.load
  · simp
  · rw [← hd, h.load hm]

theorem Line.Eases.captureDue (h : Line.Eases L M) (hd : L.captureDue = false) : M.captureDue = false := by
  unfold Line.captureDue at hd ⊢
  rw [h.enabled, h.started]
  cases hm : M.due.capture
  · simp
  · rw [← hd, h.capture hm]

theorem Line.Eases.detectorDue (h : Line.Eases L M) (hd : L.detectorDue = false) : M.detectorDue = false := by
  unfold Line.detectorDue at hd ⊢
  rw [h.enabled, h.started]
  cases hm : M.due.detector
  · simp
  · rw [← hd, h.detector hm]

theorem Line.Eases.hookDue (h : Line.Eases L M) (hd : L.hookDue = false) : M.hookDue = false := by
  unfold Line.hookDue at hd ⊢
  rw [h.enabled, h.started]
  cases hm : M.due.hook
  · simp
  · rw [← hd, h.hook hm]

theorem Line.Eases.ringDue (h : Line.Eases L M) (hd : L.ringDue = false) : M.ringDue = false := by
  unfold Line.ringDue at hd ⊢
  rw [h.enabled, h.started]
  cases hm : M.due.ring
  · simp
  · rw [← hd, h.ring hm]

end Due

section Works

variable (L : Line)

theorem Line.stored_frame : ∃ capWrite capRead unread stats,
    L.stored = { L with capWrite := capWrite, capRead := capRead, unread := unread, stats := stats } := by
  unfold Line.stored
  split <;> exact ⟨_, _, _, _, rfl⟩

theorem Line.stored_eases : Line.Eases L { L.stored with due := { L.due with capture := false } } := by
  obtain ⟨_, _, _, _, h⟩ := L.stored_frame
  rw [h]
  exact ⟨rfl, rfl, id, id, fun h => (nomatch h), id, id, id⟩

theorem Line.takeDetector_eases (programs : List ProgramRecord) : Line.Eases L (L.takeDetector programs).1 := by
  refine .trans ?_ (L.takeDetector_calls programs).eases
  exact ⟨rfl, rfl, id, id, id, fun h => (nomatch h), id, id⟩

theorem Line.takeHook_eases (programs : List ProgramRecord) : Line.Eases L (L.takeHook programs).1 := by
  obtain ⟨hook, h⟩ := L.takeHook_calls programs
  refine .trans ?_ h.eases
  exact ⟨rfl, rfl, id, id, id, id, fun h => (nomatch h), id⟩

theorem Line.takeRing_eases : Line.Eases L L.takeRing.1 := by
  refine .trans ?_ L.takeRing_calls.eases
  exact ⟨rfl, rfl, id, id, id, id, id, fun h => (nomatch h)⟩

theorem Line.loadCell_eases (i : LoadInput) : Line.Eases L (L.loadCell i).1 := by
  obtain ⟨_, _, _, h⟩ := L.loadCell_frame i
  refine .trans ?_ h.eases
  unfold Line.setHalf
  split <;> exact ⟨rfl, rfl, id, fun h => (nomatch h), id, id, id, id⟩

theorem Line.start_startDue : L.start.startDue = false := by simp [Line.startDue, Line.start]

theorem Line.stored_captureDue : Line.captureDue { L.stored with due := { L.due with capture := false } } = false := by
  simp [Line.captureDue]

theorem Line.takeDetector_detectorDue (programs : List ProgramRecord) : (L.takeDetector programs).1.detectorDue = false :=
  (L.takeDetector_calls programs).eases.detectorDue (by simp [Line.detectorDue])

theorem Line.takeHook_hookDue (programs : List ProgramRecord) : (L.takeHook programs).1.hookDue = false := by
  obtain ⟨hook, h⟩ := L.takeHook_calls programs
  exact h.eases.hookDue (by simp [Line.hookDue])

theorem Line.takeRing_ringDue : L.takeRing.1.ringDue = false := L.takeRing_calls.eases.ringDue (by simp [Line.ringDue])

theorem Line.loadCell_loadDue (i : LoadInput) : (L.loadCell i).1.loadDue = false := by
  obtain ⟨_, _, _, h⟩ := L.loadCell_frame i
  exact h.eases.loadDue (by simp [Line.loadDue])

end Works

/-! ### A frame finds nothing due -/

section Settle

variable (s : State) (l k : Fin 4)

/-- The line has no work left from the last boundary. -/
def Line.Quiet (L : Line) : Prop :=
  L.startDue = false ∧ L.captureDue = false ∧ L.detectorDue = false ∧ L.hookDue = false ∧ L.ringDue = false ∧ L.loadDue = false

theorem State.captureStep_eases : Line.Eases (s.line l) ((s.captureStep l).line l) := by
  rw [State.line_captureStep]
  split
  · exact Line.stored_eases _
  · exact .refl _

theorem State.detectorStep_eases : Line.Eases (s.line l) ((s.detectorStep l).line l) := by
  rw [State.line_detectorStep]
  split
  · exact Line.takeDetector_eases _ _
  · exact .refl _

theorem State.hookStep_eases : Line.Eases (s.line l) ((s.hookStep l).line l) := by
  rw [State.line_hookStep]
  split
  · exact Line.takeHook_eases _ _
  · exact .refl _

theorem State.ringStep_eases : Line.Eases (s.line l) ((s.ringStep l).line l) := by
  rw [State.line_ringStep]
  split
  · exact Line.takeRing_eases _
  · exact .refl _

theorem State.loadStep_eases : Line.Eases (s.line l) ((s.loadStep l).line l) := by
  rw [State.line_loadStep]
  split
  · exact Line.loadCell_eases _ _
  · exact .refl _

theorem State.startStep_done : ((s.startStep l).line l).startDue = false := by
  rw [State.line_startStep]
  split
  · exact Line.start_startDue _
  · simp_all

theorem State.captureStep_done : ((s.captureStep l).line l).captureDue = false := by
  rw [State.line_captureStep]
  split
  · exact Line.stored_captureDue _
  · simp_all

theorem State.detectorStep_done : ((s.detectorStep l).line l).detectorDue = false := by
  rw [State.line_detectorStep]
  split
  · exact Line.takeDetector_detectorDue _ _
  · simp_all

theorem State.hookStep_done : ((s.hookStep l).line l).hookDue = false := by
  rw [State.line_hookStep]
  split
  · exact Line.takeHook_hookDue _ _
  · simp_all

theorem State.ringStep_done : ((s.ringStep l).line l).ringDue = false := by
  rw [State.line_ringStep]
  split
  · exact Line.takeRing_ringDue _
  · simp_all

theorem State.loadStep_done : ((s.loadStep l).line l).loadDue = false := by
  rw [State.line_loadStep]
  split
  · exact Line.loadCell_loadDue _ _
  · simp_all

/-- The works of a line, once taken in their order, are all done: a later one raises no flag again. -/
theorem State.settleLine_quiet : ((s.settleLine l).line l).Quiet := by
  have e5 := State.loadStep_eases (((((s.startStep l).captureStep l).detectorStep l).hookStep l).ringStep l) l
  have e4 := (State.ringStep_eases ((((s.startStep l).captureStep l).detectorStep l).hookStep l) l).trans e5
  have e3 := (State.hookStep_eases (((s.startStep l).captureStep l).detectorStep l) l).trans e4
  have e2 := (State.detectorStep_eases ((s.startStep l).captureStep l) l).trans e3
  have e1 := (State.captureStep_eases (s.startStep l) l).trans e2
  exact ⟨e1.startDue (s.startStep_done l), e2.captureDue (State.captureStep_done _ l), e3.detectorDue (State.detectorStep_done _ l),
    e4.hookDue (State.hookStep_done _ l), e5.ringDue (State.ringStep_done _ l), State.loadStep_done _ l⟩

theorem State.line_settleLine_ne {l k : Fin 4} (h : k ≠ l) : (s.settleLine l).line k = s.line k := by
  unfold State.settleLine
  rw [State.line_loadStep, if_neg (by tauto), State.line_ringStep, if_neg (by tauto), State.line_hookStep, if_neg (by tauto),
    State.line_detectorStep, if_neg (by tauto), State.line_captureStep, if_neg (by tauto), State.line_startStep, if_neg (by tauto)]

theorem State.startStep_part : (s.startStep l).timebase = s.timebase ∧ (s.startStep l).frame = s.frame := by
  unfold State.startStep
  split <;> simp

theorem State.settleLine_part : (s.settleLine l).timebase = s.timebase ∧ (s.settleLine l).frame = s.frame := by
  unfold State.settleLine
  have hstart (s : State) := s.startStep_part l
  have hcapture (s : State) : (s.captureStep l).timebase = s.timebase ∧ (s.captureStep l).frame = s.frame := by
    obtain h | ⟨-, h | h⟩ := s.captureStep_eq l <;> rw [h] <;> simp [State.stored]
  have hdetector (s : State) : (s.detectorStep l).timebase = s.timebase ∧ (s.detectorStep l).frame = s.frame := by
    unfold State.detectorStep
    split <;> simp
  have hhook (s : State) : (s.hookStep l).timebase = s.timebase ∧ (s.hookStep l).frame = s.frame := by
    unfold State.hookStep
    split <;> simp
  have hring (s : State) : (s.ringStep l).timebase = s.timebase ∧ (s.ringStep l).frame = s.frame := by
    unfold State.ringStep
    split <;> simp
  have hload (s : State) : (s.loadStep l).timebase = s.timebase ∧ (s.loadStep l).frame = s.frame := by
    unfold State.loadStep State.loadLine
    split <;> simp
  simp only [hload, hring, hhook, hdetector, hcapture, hstart, and_self]

theorem State.boundaryStep_done : s.boundaryStep.boundaryDue = false := by
  unfold State.boundaryStep
  split
  · simp [State.boundaryDue]
  · simp_all

theorem State.settle_part : s.settle.timebase = s.boundaryStep.timebase ∧ s.settle.frame = s.boundaryStep.frame := by
  simp [State.settle, four, State.settleLine_part]

theorem State.settle_timebase : s.settle.timebase = s.timebase := by
  rw [s.settle_part.1]
  unfold State.boundaryStep
  split <;> rfl

/-- All that is left over is taken by then: a frame itself finds nothing due (log entry 3). -/
theorem State.settle_nothingDue : s.settle.NothingDue := by
  refine ⟨?_, fun l => ?_⟩
  · unfold State.boundaryDue
    rw [s.settle_part.1, s.settle_part.2]
    exact s.boundaryStep_done
  · show (s.settle.line l).Quiet
    unfold State.settle four
    simp only [List.foldl_cons, List.foldl_nil]
    fin_cases l
    · rw [State.line_settleLine_ne _ (by decide), State.line_settleLine_ne _ (by decide), State.line_settleLine_ne _ (by decide)]
      exact State.settleLine_quiet _ _
    · rw [State.line_settleLine_ne _ (by decide), State.line_settleLine_ne _ (by decide)]
      exact State.settleLine_quiet _ _
    · rw [State.line_settleLine_ne _ (by decide)]
      exact State.settleLine_quiet _ _
    · exact State.settleLine_quiet _ _

end Settle

end Sys2Proof.Machine
end

section
/-! Every command is a chain of moves. -/

namespace Sys2Proof.Machine

section Chains

variable {c : Instr} {s t u : State}

/-! ### Shared operations -/

theorem Moves.setLink {k : Link} (h : Moves c s t) (x : LinkState) (hc : Instr.Reaches c k) : Moves c s (t.setLink k x) :=
  h.tail (.link k x hc)

theorem Moves.answer {k : Link} (h : Moves c s t) (r : Result) (fields : List Byte) (hc : Instr.Reaches c k) :
    Moves c s (t.answer k r fields) :=
  h.tail (.link k _ hc)

theorem Moves.refuse {k : Link} (h : Moves c s t) (r : Result) (hc : Instr.Reaches c k) : Moves c s (t.refuse k r) :=
  h.tail (.link k _ hc)

theorem Moves.truncated {k : Link} (h : Moves c s t) (hc : Instr.Reaches c k) : Moves c s (t.truncated k) :=
  h.tail (.link k _ hc)

theorem Moves.setSequence (h : Moves c s t) (hc : Instr.Reaches c .media) : Moves c s t.setSequence :=
  h.tail (.sequence true hc)

theorem Moves.setLine {l : Fin 4} {L : Line} (h : Moves c s t) (hL : Line.Move c t.programs (t.line l) L) :
    Moves c s (t.setLine l L) :=
  h.tail (.line l L hL)

theorem Moves.queue (hc : Instr.Reaches c .control) {l : Fin 4} {stamp : Word32} {es : List Event} (hp : Plain es)
    (h : Moves c s t) : Moves c s (t.queue l stamp es) := by
  induction es generalizing t with
  | nil => exact h
  | cons e es ih =>
    obtain ⟨he, hes⟩ := plain_cons.mp hp
    exact ih hes (h.tail (.arrive _ hc (isOverflow_of_plain he)))

/-- An event on a line's record: the move of the line, and its records arriving. -/
theorem Moves.commitLine (hc : Instr.Reaches c .control) {l : Fin 4} {stamp : Word32} {r : LineStep} (hp : Plain r.2)
    (hL : Line.Move c s.programs (s.line l) r.1) : Moves c s (s.commitLine l stamp r) :=
  Moves.queue hc hp (Move.moves (.line l r.1 hL))

theorem State.withLine_moves {k : Link} {b : Byte} {f : Fin 4 → State} (hc : Instr.Reaches c k) (hf : ∀ l, Moves c s (f l)) :
    Moves c s (s.withLine k b f) := by
  obtain ⟨l, -, h⟩ | ⟨-, h⟩ := State.withLine_cases (s := s) (k := k) (b := b) (f := f)
  · rw [h]
    exact hf l
  · rw [h]
    exact Moves.refl.refuse _ hc

theorem State.checked_moves {k : Link} {checks : List (Bool × Result)} {u : State} (hc : Instr.Reaches c k)
    (hu : firstFailing checks = none → Moves c s u) : Moves c s (s.checked k checks u) := by
  obtain ⟨hn, h⟩ | ⟨r, -, h⟩ := State.checked_cases (s := s) (k := k) (cs := checks) (u := u)
  · rw [h]
    exact hu hn
  · rw [h]
    exact Moves.refl.refuse _ hc

/-! ### The writes of a deposit or a fill -/

theorem State.writeLines_moves (hc : Instr.Reaches c .media) {j : WriteJob} : ∀ (ls : List (Fin 4)) {s : State}, s.job = some j →
    Moves c s (s.writeLines j.write ls)
  | [], _, _ => .refl
  | l :: ls, s, hj =>
    (Move.moves (.writeLine j l hc hj)).trans (State.writeLines_moves hc ls (s := s.writeLine j.write l) (by rw [State.writeLine_job, hj]))

theorem State.advance_moves (hc : Instr.Reaches c .media) (n : Nat) : Moves c s (s.advance n) := by
  obtain ⟨-, h⟩ | ⟨j, hj, ⟨-, h⟩ | ⟨-, h⟩⟩ := s.advance_cases n
  · rw [h]
    exact .refl
  · rw [h]
    have hw := State.writeLines_moves hc j.left hj
    have hf := hw.tail (.finish hc)
    unfold State.endWrites
    cases j.write.kind
    · exact (hf.tail (.deposit none hc (.closed _))).answer _ _ hc
    · exact hf.answer _ _ hc
  · rw [h]
    exact (State.writeLines_moves hc _ hj).tail (.goOn j _ _ hc (by rw [State.writeLines_job, hj]))

theorem State.finishWrites_moves (hc : Instr.Reaches c .media) : Moves c s s.finishWrites := by
  unfold State.finishWrites
  split
  · exact .refl
  · exact State.advance_moves hc _

/-! ### Taking a command -/

theorem State.take_moves {f : State → State} (h : s.take f = .next t) (hf : ∀ s, Moves c s (f s)) : Moves c s t := by
  obtain ⟨-, rfl⟩ | ⟨-, rfl⟩ := State.take_next h
  · exact .refl
  · exact hf s

/-- A row that names a part of a work: the work where it has that part, and nothing where it has not (log entry 4). -/
theorem State.take_where_moves {p : State → Prop} [DecidablePred p] {f : State → State}
    (h : s.take (fun s => if p s then f s else s) = .next t) (hf : ∀ s, Moves c s (f s)) : Moves c s t :=
  State.take_moves h fun s => by
    split
    · exact hf s
    · exact .refl

theorem State.hear_moves {k : Link} {f : State → State} (hc : Instr.Reaches c k) (hf : ∀ s, Moves c s (f s)) :
    Moves c s (s.hear k f) := by
  unfold State.hear
  split
  · exact Moves.refl.setLink _ hc
  · exact hf s

theorem State.takeControl_moves {f : State → State} (hc : Instr.Reaches c .control) (h : s.takeControl f = .next t)
    (hf : ∀ s, Moves c s (f s)) : Moves c s t :=
  State.take_moves h fun _ => State.hear_moves hc hf

theorem State.takeMedia_moves {f : State → State} (hc : Instr.Reaches c .media) (h : s.takeMedia f = .next t)
    (hf : ∀ s, Moves c s (f s)) : Moves c s t :=
  State.take_moves h fun _ => State.hear_moves hc fun _ => (State.finishWrites_moves hc).trans (hf _)

theorem State.takeOn_moves {k : Link} {f : State → State} (hc : Instr.Reaches c k) (h : s.takeOn k f = .next t)
    (hf : ∀ s, Moves c s (f s)) : Moves c s t := by
  cases k
  · exact State.takeControl_moves hc h hf
  · exact State.takeMedia_moves hc h hf

/-! ### Works -/

theorem State.startStep_moves (l : Fin 4) : Moves c s (s.startStep l) := by
  unfold State.startStep
  split
  · exact Move.moves (.line l _ (.start (by assumption)))
  · exact .refl

theorem State.captureStep_moves (hc : Instr.Reaches c .media) (l : Fin 4) : Moves c s (s.captureStep l) := by
  obtain h | ⟨hd, h | h⟩ := s.captureStep_eq l
  · rw [h]
    exact .refl
  · rw [h]
    exact Move.moves (.store l hd)
  · rw [h]
    exact (Move.moves (.store l hd)).setLink _ hc

theorem State.detectorStep_moves (hc : Instr.Reaches c .control) (l : Fin 4) : Moves c s (s.detectorStep l) := by
  unfold State.detectorStep
  split
  · exact Moves.commitLine hc (Line.takeDetector_plain _ _) (.takeDetector (by assumption))
  · exact .refl

theorem State.hookStep_moves (hc : Instr.Reaches c .control) (l : Fin 4) : Moves c s (s.hookStep l) := by
  unfold State.hookStep
  split
  · exact Moves.commitLine hc (Line.takeHook_plain _ _) (.takeHook (by assumption))
  · exact .refl

theorem State.ringStep_moves (hc : Instr.Reaches c .control) (l : Fin 4) : Moves c s (s.ringStep l) := by
  unfold State.ringStep
  split
  · exact Moves.commitLine hc (Line.takeRing_plain _) (.takeRing (by assumption))
  · exact .refl

theorem State.loadStep_moves (hc : Instr.Reaches c .control) {l : Fin 4} (hl : Instr.Loads c l) : Moves c s (s.loadStep l) := by
  unfold State.loadStep
  split
  · exact Moves.queue hc (Line.loadCell_plain _ _) (Move.moves (.load l hl (by assumption)))
  · exact .refl

theorem State.boundaryStep_moves : Moves c s s.boundaryStep := by
  unfold State.boundaryStep
  split
  · exact Move.moves (.boundary (by assumption))
  · exact .refl

theorem State.settle_moves (hcontrol : Instr.Reaches c .control) (hmedia : Instr.Reaches c .media) (hl : ∀ l, Instr.Loads c l) :
    Moves c s s.settle := by
  have hline (s : State) (l : Fin 4) : Moves c s (s.settleLine l) :=
    (State.startStep_moves l).trans ((State.captureStep_moves hmedia l).trans ((State.detectorStep_moves hcontrol l).trans
      ((State.hookStep_moves hcontrol l).trans ((State.ringStep_moves hcontrol l).trans (State.loadStep_moves hcontrol (hl l))))))
  unfold State.settle four
  simp only [List.foldl_cons, List.foldl_nil]
  exact State.boundaryStep_moves.trans ((hline _ 0).trans ((hline _ 1).trans ((hline _ 2).trans (hline _ 3))))

end Chains

/-! ### Requests -/

section Requests

variable {s t : State}

theorem execHighwayFrame_moves {hrx : BitVec 256} {hook : Four Bool} (h : execHighwayFrame hrx hook s = .next t) :
    Moves (.highwayFrame hrx hook) s t := by
  refine State.take_moves h fun s => ?_
  split
  case isTrue hr =>
    have hs : Moves (.highwayFrame hrx hook) s s.settle :=
      State.settle_moves (.inl rfl) (.inl rfl) fun l => .inr ⟨hrx, hook, rfl⟩
    exact hs.tail (.frame hrx hook rfl (s.settle_timebase.trans hr) s.settle_nothingDue)
  case isFalse => exact .refl

theorem execEnableLine_moves {line : Byte} (h : execEnableLine line s = .next t) : Moves (.enableLine line) s t := by
  refine State.takeControl_moves (.inr rfl) h fun s => State.withLine_moves (.inr rfl) fun l => ?_
  split
  case isTrue => exact Moves.refl.answer _ _ (.inr rfl)
  case isFalse he =>
    refine State.checked_moves (.inr rfl) fun hn => ?_
    have hr := firstFailing_eq_none.mp hn
    simp only [List.mem_cons, List.not_mem_nil, or_false, forall_eq_or_imp, forall_eq, Bool.and_eq_true] at hr
    exact (Move.moves (.enable l ⟨line, rfl⟩ (Bool.eq_false_iff.mpr he) hr.2.1 hr.2.2)).answer _ _ (.inr rfl)

theorem execDisableLine_moves {line : Byte} (h : execDisableLine line s = .next t) : Moves (.disableLine line) s t := by
  refine State.takeControl_moves (.inr rfl) h fun s => State.withLine_moves (.inr rfl) fun l => ?_
  split
  case isTrue he => exact (Move.moves (.disable l ⟨line, rfl⟩ he)).answer _ _ (.inr rfl)
  case isFalse => exact Moves.refl.answer _ _ (.inr rfl)

theorem execSetMode_moves {line mode : Byte} (h : execSetMode line mode s = .next t) : Moves (.setMode line mode) s t := by
  refine State.takeControl_moves (.inr rfl) h fun s => State.withLine_moves (.inr rfl) fun l => ?_
  split
  · exact Moves.refl.refuse _ (.inr rfl)
  · split
    case isTrue he => exact (Moves.refl.setLine (.requestMode _ he)).answer _ _ (.inr rfl)
    case isFalse => exact Moves.refl.refuse _ (.inr rfl)

theorem execWriteTones_moves {start count : Byte} {fields : List Word16} (h : execWriteTones start count fields s = .next t) :
    Moves (.writeTones start count fields) s t := by
  refine State.takeControl_moves (.inr rfl) h fun s => ?_
  split
  · exact Moves.refl.refuse _ (.inr rfl)
  case isFalse hok =>
    split
    · exact Moves.refl.truncated (.inr rfl)
    · have hstart : toneStartOk start = true := by
        simp only [Bool.not_eq_true', Bool.not_eq_false, Bool.and_eq_true] at hok
        exact hok.1
      exact (Move.moves (.tones start _ hstart)).answer _ _ (.inr rfl)

theorem execWriteProgram_moves {record control repeats count : Byte} {segments : List RawSegment}
    (h : execWriteProgram record control repeats count segments s = .next t) :
    Moves (.writeProgram record control repeats count segments) s t := by
  refine State.takeControl_moves (.inr rfl) h fun s => ?_
  split
  · exact Moves.refl.refuse _ (.inr rfl)
  case isFalse hok =>
    split
    · exact Moves.refl.truncated (.inr rfl)
    · have hlen : (segments.take count.toNat).length ≤ 8 := by
        simp [segmentCountOk] at hok
        rw [List.length_take]
        omega
      exact State.checked_moves (.inr rfl) fun hn =>
        (Move.moves (.program record control repeats count segments _ rfl hlen hn)).answer _ _ (.inr rfl)

theorem startSignalChecks_passed {L : Line} {record : Byte} {v : Level} (h : firstFailing (startSignalChecks s L record v) = none) :
    record.toNat ≤ 15 ∧ (programAt s.programs record.toNat).segments ≠ [] ∧ L.enabled = true ∧ L.mode = .voice ∧
      (v = .background ∨ L.foreground = none ∧ L.ring.holdsCid = false) := by
  have h := firstFailing_eq_none.mp h
  simpa [startSignalChecks, and_assoc] using h

theorem execStartSignal_moves {line record level : Byte} (h : execStartSignal line record level s = .next t) :
    Moves (.startSignal line record level) s t := by
  refine State.takeControl_moves (.inr rfl) h fun s => State.withLine_moves (.inr rfl) fun l => ?_
  split
  · exact Moves.refl.refuse _ (.inr rfl)
  · refine State.checked_moves (.inr rfl) fun hn => ?_
    obtain ⟨-, -, he, hm, hv⟩ := startSignalChecks_passed hn
    exact (Moves.commitLine (.inr rfl) (Line.startContext_plain _ _ _ _) (.startContext _ _ he hm hv)).answer _ _ (.inr rfl)

theorem execStopSignal_moves {line level : Byte} (h : execStopSignal line level s = .next t) :
    Moves (.stopSignal line level) s t := by
  refine State.takeControl_moves (.inr rfl) h fun s => State.withLine_moves (.inr rfl) fun l => ?_
  split
  · exact Moves.refl.refuse _ (.inr rfl)
  case h_2 v _ =>
    split
    · exact Moves.refl.refuse _ (.inr rfl)
    case h_2 x hx =>
      split
      case h_1 hk =>
        exact (Moves.commitLine (.inr rfl) (Line.stopProgram_plain _ v)
          (.stopProgram v x hx (by simp [Context.isProgram, hk]))).answer _ _ (.inr rfl)
      case h_2 hk =>
        exact (Moves.commitLine (.inr rfl) (plain_cons.mpr ⟨rfl, plain_nil⟩)
          (.stopAlert v x hx (by simp [Context.isAlert, hk]))).answer _ _ (.inr rfl)
      case h_3 => exact Moves.refl.refuse _ (.inr rfl)

theorem execLoadCid_moves {line type length : Byte} {payload : List Byte} (h : execLoadCid line type length payload s = .next t) :
    Moves (.loadCid line type length payload) s t := by
  refine State.takeControl_moves (.inr rfl) h fun s => ?_
  split
  · exact Moves.refl.refuse _ (.inr rfl)
  · split
    · exact Moves.refl.truncated (.inr rfl)
    · refine State.withLine_moves (.inr rfl) fun l => State.checked_moves (.inr rfl) fun hn => ?_
      have hr := firstFailing_eq_none.mp hn
      simp only [List.mem_cons, List.not_mem_nil, or_false, forall_eq_or_imp, forall_eq] at hr
      exact (Moves.refl.setLine (.loadMessage _ hr.1)).answer _ _ (.inr rfl)

theorem execRingStop_moves {line : Byte} (h : execRingStop line s = .next t) : Moves (.ringStop line) s t := by
  refine State.takeControl_moves (.inr rfl) h fun s => State.withLine_moves (.inr rfl) fun l => ?_
  split
  · exact Moves.refl.refuse _ (.inr rfl)
  · exact (Moves.commitLine (.inr rfl) (Line.stopRinging_plain _) (.stopRinging (by assumption))).answer _ _ (.inr rfl)

theorem execReadEvents_moves {maximum : Byte} (h : execReadEvents maximum s = .next t) : Moves (.readEvents maximum) s t := by
  refine State.takeControl_moves (.inr rfl) h fun s => ?_
  split
  · exact (Move.moves (.readEvents _ (.inr rfl))).answer _ _ (.inr rfl)
  · exact Moves.refl.refuse _ (.inr rfl)

theorem execOpenDeposit_moves {mask source control gain : Byte} {time : Word32}
    (h : execOpenDeposit mask source time control gain s = .next t) : Moves (.openDeposit mask source time control gain) s t := by
  refine State.takeMedia_moves (.inr rfl) h fun s => ?_
  split
  · split
    · exact Moves.refl.refuse _ (.inr rfl)
    · have hs : Moves (.openDeposit mask source time control gain) s (if s.deposit.isSome = true then s.setSequence else s) := by
        split
        · exact Moves.refl.setSequence (.inr rfl)
        · exact .refl
      exact (hs.tail (.deposit _ (.inr rfl) (.opened _ _ _ _ _ _))).answer _ _ (.inr rfl)
  · exact Moves.refl.refuse _ (.inr rfl)

theorem State.receiveData_moves {c : Instr} (hc : Instr.Reaches c .media) (samples : List Sample) : Moves c s (s.receiveData samples) := by
  unfold State.receiveData
  split
  · exact (Moves.refl.setSequence hc).answer _ _ hc
  case h_2 d hd =>
    split
    · exact (Moves.refl.setSequence hc).answer _ _ hc
    · have hb : Deposit.Becomes s.deposit (some (d.append samples)) := hd ▸ Deposit.Becomes.appended d samples
      have ha := Move.moves (c := c) (.deposit _ hc hb)
      dsimp only
      split
      · exact (ha.setSequence hc).answer _ _ hc
      · exact ha.answer _ _ hc

theorem State.breakDeposit_moves {c : Instr} (hc : Instr.Reaches c .media) : Moves c s s.breakDeposit :=
  Move.moves (.deposit _ hc (.broken _))

theorem execDepositData_moves {count : Word16} {samples : List Sample} (h : execDepositData count samples s = .next t) :
    Moves (.depositData count samples) s t := by
  refine State.takeMedia_moves (.inr rfl) h fun s => ?_
  split
  · exact Moves.refl.refuse _ (.inr rfl)
  · split
    · exact (State.breakDeposit_moves (.inr rfl)).truncated (.inr rfl)
    · exact State.receiveData_moves (.inr rfl) _

theorem State.beginCommit_moves {c : Instr} (hc : Instr.Reaches c .media) : Moves c s s.beginCommit := by
  unfold State.beginCommit
  have hclosed := Move.moves (c := c) (s := s) (.deposit none hc (.closed _))
  split
  · exact (Moves.refl.setSequence hc).refuse _ hc
  case h_2 d hd =>
    split
    · exact (hclosed.setSequence hc).refuse _ hc
    · split
      · exact hclosed.refuse _ hc
      · exact Move.moves (.beginWrites _ _ hc (.deposit d hd (by omega)))

theorem execCommitDeposit_moves {writes : Nat} (h : execCommitDeposit s writes = .next t) : Moves (.commitDeposit writes) s t := by
  unfold execCommitDeposit at h
  split at h
  · exact State.take_moves h fun _ => State.advance_moves (.inr rfl) writes
  · exact State.takeMedia_moves (.inr rfl) h fun _ => (State.beginCommit_moves (.inr rfl)).trans (State.advance_moves (.inr rfl) writes)

theorem execAbandonDeposit_moves (h : execAbandonDeposit s = .next t) : Moves .abandonDeposit s t := by
  refine State.takeMedia_moves (.inr rfl) h fun s => ?_
  split
  · exact (Move.moves (.deposit none (.inr rfl) (.closed _))).answer _ _ (.inr rfl)
  · exact Moves.refl.refuse _ (.inr rfl)

theorem State.beginFill_moves {c : Instr} (hc : Instr.Reaches c .media) (mask source : Byte) (time : Word32) (control gain : Byte) :
    Moves c s (s.beginFill mask source time control gain) := by
  unfold State.beginFill
  split
  · split
    · exact Moves.refl.refuse _ hc
    · split
      · exact Moves.refl.refuse _ hc
      · exact Move.moves (.beginWrites _ _ hc (.fill _ _ _ _))
  · exact Moves.refl.refuse _ hc

theorem execFillCells_moves {mask source control gain : Byte} {time : Word32} {writes : Nat}
    (h : execFillCells mask source time control gain s writes = .next t) : Moves (.fillCells mask source time control gain writes) s t := by
  unfold execFillCells at h
  split at h
  · exact State.take_moves h fun _ => State.advance_moves (.inr rfl) writes
  · exact State.takeMedia_moves (.inr rfl) h fun _ =>
      (State.beginFill_moves (.inr rfl) _ _ _ _ _).trans (State.advance_moves (.inr rfl) writes)

theorem execLoadFillPattern_moves {count : Word16} {samples : List Sample} (h : execLoadFillPattern count samples s = .next t) :
    Moves (.loadFillPattern count samples) s t := by
  refine State.takeMedia_moves (.inr rfl) h fun s => ?_
  split
  · exact Moves.refl.refuse _ (.inr rfl)
  · split
    · exact Moves.refl.truncated (.inr rfl)
    · exact (Move.moves (.fillPattern _ ⟨count, samples, rfl⟩ (List.length_take_of_le (by omega)))).answer _ _ (.inr rfl)

theorem State.realign_moves {c : Instr} (hc : Instr.Reaches c .media) (line slip : Byte) (clear : Bool) :
    Moves c s (s.realign line slip clear) := by
  refine State.withLine_moves hc fun l => ?_
  split
  case isTrue he =>
    have hadd : Moves c s (s.setLine l ((s.line l).addSlip slip)) := Moves.refl.setLine (.addSlip slip he)
    refine Moves.answer ?_ _ _ hc
    cases clear
    · exact hadd
    · have hclear := hadd.tail (.clear l (by simpa [Line.addSlip] using he))
      simpa [State.setLine, State.setStore, State.line, Store.emptyRing, Line.playBase, Line.lp, Line.addSlip] using hclear
  case isFalse => exact Moves.refl.refuse _ hc

theorem execCaptureRead_moves {line maximum : Byte} (h : execCaptureRead line maximum s = .next t) :
    Moves (.captureRead line maximum) s t := by
  refine State.takeMedia_moves (.inr rfl) h fun s => State.withLine_moves (.inr rfl) fun l => State.checked_moves (.inr rfl) fun hn => ?_
  have hr := firstFailing_eq_none.mp hn
  simp only [List.mem_cons, List.not_mem_nil, or_false, forall_eq_or_imp, forall_eq] at hr
  exact (Moves.refl.setLine (.readOut _ hr.2 (min_le_right _ _))).answer _ _ (.inr rfl)

theorem execSetIrqMode_moves {k : Link} {mode : Byte} (h : execSetIrqMode k mode s = .next t) : Moves (.setIrqMode k mode) s t := by
  refine State.takeOn_moves (.inr rfl) h fun s => ?_
  split
  · exact Moves.refl.refuse _ (.inr rfl)
  · exact (Moves.refl.setLink _ (.inr rfl)).answer _ _ (.inr rfl)

theorem execClearLinkStatus_moves {k : Link} (h : execClearLinkStatus k s = .next t) : Moves (.clearLinkStatus k) s t := by
  refine State.takeOn_moves (.inr rfl) h fun s => ?_
  cases k
  · exact (Moves.refl.setLink (k := .control) { s.cLink with frame := false, unknown := false } (.inr rfl)).answer _ _ (.inr rfl)
  · exact ((Moves.refl.setLink (k := .media) { s.mLink with frame := false, unknown := false } (.inr rfl)).tail
      (.sequence false (.inr rfl))).answer _ _ (.inr rfl)

theorem execUnknownCode_moves {k : Link} {code : Byte} (h : execUnknownCode k code s = .next t) : Moves (.unknownCode k code) s t := by
  unfold execUnknownCode at h
  split at h
  · cases h
    exact .refl
  · exact State.takeOn_moves (.inr rfl) h fun _ => (Moves.refl.setLink _ (.inr rfl)).refuse _ (.inr rfl)

theorem execTruncatedFrame_moves {k : Link} {code : Byte} (h : execTruncatedFrame k code s = .next t) :
    Moves (.truncatedFrame k code) s t := by
  unfold execTruncatedFrame at h
  split at h
  · refine State.takeOn_moves (.inr rfl) h fun s => ?_
    split
    case isTrue hk =>
      obtain ⟨rfl, -⟩ := hk
      exact (State.breakDeposit_moves (.inr rfl)).truncated (.inr rfl)
    case isFalse => exact Moves.refl.truncated (.inr rfl)
  · cases h
    exact .refl

/-! ### All commands -/

theorem State.loadRow_moves {c : Instr} {l : Fin 4} (hc : c ∈ loadRows l) (hlink : Instr.link c = none) : Moves c s (s.loadStep l) :=
  State.loadStep_moves (.inl hlink) (.inl hc)

/-- What a command can do: its effect is a chain of moves. -/
theorem exec_moves {c : Instr} (h : exec c s = .next t) : Moves c s t := by
  cases c with
  | deviceReset low cFrame mFrame =>
    cases h
    exact Move.moves (.reset low cFrame mFrame rfl)
  | startTimebase =>
    unfold exec execStartTimebase at h
    exact State.takeControl_moves (.inr rfl) h fun _ => (Move.moves .timebase).answer _ _ (.inr rfl)
  | highwayFrame hrx hook => exact execHighwayFrame_moves h
  | globalCellBoundary =>
    unfold exec execGlobalCellBoundary at h
    exact State.take_moves h fun _ => State.boundaryStep_moves
  | startBoundary l =>
    unfold exec execStartBoundary at h
    exact State.take_moves h fun _ => State.startStep_moves l
  | configureLine line pb pl cb cl =>
    unfold exec execConfigureLine at h
    exact State.takeControl_moves (.inr rfl) h fun _ => State.withLine_moves (.inr rfl) fun l => State.checked_moves (.inr rfl) fun hn =>
      (Move.moves (.configure l _ _ ⟨line, pb, pl, cb, cl, rfl⟩ hn)).answer _ _ (.inr rfl)
  | enableLine line => exact execEnableLine_moves h
  | disableLine line => exact execDisableLine_moves h
  | setMode line mode => exact execSetMode_moves h
  | setSupervision line control attenuation =>
    unfold exec execSetSupervision at h
    exact State.takeControl_moves (.inr rfl) h fun _ => State.withLine_moves (.inr rfl) fun l =>
      (Moves.refl.setLine (.supervise control attenuation ⟨line, rfl⟩)).answer _ _ (.inr rfl)
  | writeTones start count fields => exact execWriteTones_moves h
  | writeProgram record control repeats count segments => exact execWriteProgram_moves h
  | startSignal line record level => exact execStartSignal_moves h
  | stopSignal line level => exact execStopSignal_moves h
  | loadCid line type length payload => exact execLoadCid_moves h
  | cidAlert line entry =>
    unfold exec execCidAlert at h
    exact State.takeControl_moves (.inr rfl) h fun _ => State.withLine_moves (.inr rfl) fun l => State.checked_moves (.inr rfl) fun hn =>
      (Moves.refl.setLine (.startAlert entry hn)).answer _ _ (.inr rfl)
  | ringStart line on off bursts cid delay =>
    unfold exec execRingStart at h
    exact State.takeControl_moves (.inr rfl) h fun _ => State.withLine_moves (.inr rfl) fun l => State.checked_moves (.inr rfl) fun hn =>
      (Moves.refl.setLine (.startRinging on off bursts cid delay hn)).answer _ _ (.inr rfl)
  | ringStop line => exact execRingStop_moves h
  | readEvents maximum => exact execReadEvents_moves h
  | openDeposit mask source time control gain => exact execOpenDeposit_moves h
  | depositData count samples => exact execDepositData_moves h
  | commitDeposit writes => exact execCommitDeposit_moves h
  | abandonDeposit => exact execAbandonDeposit_moves h
  | fillCells mask source time control gain writes => exact execFillCells_moves h
  | loadFillPattern count samples => exact execLoadFillPattern_moves h
  | setPlayout line values =>
    unfold exec execSetPlayout at h
    exact State.takeMedia_moves (.inr rfl) h fun _ => State.withLine_moves (.inr rfl) fun l =>
      (Moves.refl.setLine (.setPlayout values)).answer _ _ (.inr rfl)
  | realign line slip control =>
    unfold exec execRealign at h
    exact State.takeMedia_moves (.inr rfl) h fun _ => State.realign_moves (.inr rfl) _ _ _
  | realignWithClear line slip control =>
    unfold exec execRealignWithClear at h
    exact State.takeMedia_moves (.inr rfl) h fun _ => State.realign_moves (.inr rfl) _ _ _
  | captureRead line maximum => exact execCaptureRead_moves h
  | readAndClearStatistics line =>
    unfold exec execReadAndClearStatistics at h
    exact State.takeMedia_moves (.inr rfl) h fun _ => State.withLine_moves (.inr rfl) fun l =>
      (Moves.refl.setLine .clearStats).answer _ _ (.inr rfl)
  | lineStatus link line =>
    unfold exec execLineStatus at h
    exact State.takeOn_moves (.inr rfl) h fun _ => State.withLine_moves (.inr rfl) fun _ => Moves.refl.answer _ _ (.inr rfl)
  | readLinkStatus link =>
    unfold exec execReadLinkStatus at h
    exact State.takeOn_moves (.inr rfl) h fun _ => Moves.refl.answer _ _ (.inr rfl)
  | clearLinkStatus link => exact execClearLinkStatus_moves h
  | setIrqMode link mode => exact execSetIrqMode_moves h
  | unknownCode link code => exact execUnknownCode_moves h
  | truncatedFrame link code => exact execTruncatedFrame_moves h
  | load l =>
    unfold exec execLoad at h
    exact State.take_moves h fun _ => State.loadRow_moves (by simp [loadRows]) rfl
  | starve l =>
    unfold exec execStarve at h
    exact State.take_where_moves h fun _ => State.loadRow_moves (by simp [loadRows]) rfl
  | windowClose l =>
    unfold exec execWindowClose at h
    exact State.take_where_moves h fun _ => State.loadRow_moves (by simp [loadRows]) rfl
  | signalDone l =>
    unfold exec execSignalDone at h
    exact State.take_where_moves h fun _ => State.loadRow_moves (by simp [loadRows]) rfl
  | alertEnd l =>
    unfold exec execAlertEnd at h
    exact State.take_where_moves h fun _ => State.loadRow_moves (by simp [loadRows]) rfl
  | cidNoAck l =>
    unfold exec execCidNoAck at h
    exact State.take_where_moves h fun _ => State.loadRow_moves (by simp [loadRows]) rfl
  | settleEnd l =>
    unfold exec execSettleEnd at h
    exact State.take_where_moves h fun _ => State.loadRow_moves (by simp [loadRows]) rfl
  | cidSent l =>
    unfold exec execCidSent at h
    exact State.take_where_moves h fun _ => State.loadRow_moves (by simp [loadRows]) rfl
  | captureStore l =>
    unfold exec execCaptureStore at h
    exact State.take_moves h fun _ => State.captureStep_moves (.inl rfl) l
  | mirqPulse periods =>
    unfold exec execMirqPulse at h
    exact State.take_moves h fun _ => Moves.refl.setLink _ (.inl rfl)
  | toneDetectorStep l =>
    unfold exec execToneDetectorStep at h
    exact State.take_moves h fun _ => State.detectorStep_moves (.inl rfl) l
  | digit l =>
    unfold exec execDigit at h
    exact State.take_where_moves h fun _ => State.detectorStep_moves (.inl rfl) l
  | digitEnd l =>
    unfold exec execDigitEnd at h
    exact State.take_where_moves h fun _ => State.detectorStep_moves (.inl rfl) l
  | faxCalling l =>
    unfold exec execFaxCalling at h
    exact State.take_where_moves h fun _ => State.detectorStep_moves (.inl rfl) l
  | faxAnswer l direction =>
    cases direction with
    | localEnd =>
      unfold exec execFaxAnswer at h
      exact State.take_where_moves h fun _ => State.detectorStep_moves (.inl rfl) l
    | remoteEnd =>
      unfold exec execFaxAnswer at h
      exact State.take_where_moves h fun _ => State.loadRow_moves (by simp [loadRows]) rfl
  | hookSample l =>
    unfold exec execHookSample at h
    exact State.take_moves h fun _ => State.hookStep_moves (.inl rfl) l
  | offHook l =>
    unfold exec execOffHook at h
    exact State.take_where_moves h fun _ => State.hookStep_moves (.inl rfl) l
  | onHook l =>
    unfold exec execOnHook at h
    exact State.take_where_moves h fun _ => State.hookStep_moves (.inl rfl) l
  | pulseDigit l =>
    unfold exec execPulseDigit at h
    exact State.take_where_moves h fun _ => State.hookStep_moves (.inl rfl) l
  | burstEnd l =>
    unfold exec execBurstEnd at h
    exact State.take_where_moves h fun _ => State.ringStep_moves (.inl rfl) l
  | burstBegin l =>
    unfold exec execBurstBegin at h
    exact State.take_where_moves h fun _ => State.ringStep_moves (.inl rfl) l
  | cidSend l =>
    unfold exec execCidSend at h
    exact State.take_where_moves h fun _ => State.ringStep_moves (.inl rfl) l
  | cirqPulse periods =>
    unfold exec execCirqPulse at h
    exact State.take_moves h fun _ => Moves.refl.setLink _ (.inl rfl)

/-- A law that every move keeps, and that asks nothing of the queue of commands, is kept by every step. -/
theorem kept_of_move {P : State → Prop} (hq : ∀ s q, P s → P (s.withPending q))
    (hm : ∀ {c : Instr} {s t : State}, Move c s t → P s → P t) : Kept P := by
  intro s t hs h
  obtain ⟨-, rfl⟩ | ⟨c, q, -, h⟩ := step_cases h
  · exact hs
  · exact (exec_moves h).keeps hm (hq s q hs)

end Requests

end Sys2Proof.Machine
end

section
/-! Laws of a line's record under every step: what such a law has to survive is said once (`Line.Keeps`), with the two cases of a line's own
moves that most laws distinguish; and from it the ranges of the pending slip, the statistics, the depths and the ring indices. -/

namespace Sys2Proof.Machine

/-! ### What a law of a line has to survive -/

/-- The lengths and places that CONFIGURE LINE accepts for two rings, or the removal of both (R17, R18). -/
def ringsAccepted (p q : RingEntry) : Prop :=
  (p.len = 0 ∧ q.len = 0) ∨
    (8 ≤ p.len ∧ p.len ≤ 256 ∧ 4 ≤ q.len ∧ q.len ≤ 64 ∧ p.base + p.len ≤ 1024 ∧ q.base + q.len ≤ 1024 ∧ p.disjoint q = true)

theorem configureChecks_passed {s : State} {l : Fin 4} {p q : RingEntry} (h : firstFailing (configureChecks s l p q) = none) :
    (s.line l).enabled = false ∧ ringsAccepted p q ∧
      ((p.len = 0 ∧ q.len = 0) ∨ (s.clearOfOthers l p = true ∧ s.clearOfOthers l q = true)) := by
  have h := firstFailing_eq_none.mp h
  simp only [configureChecks, RingEntry.fits, List.mem_cons, List.not_mem_nil, or_false, forall_eq_or_imp, forall_eq, Bool.or_eq_true,
    Bool.and_eq_true, beq_iff_eq, decide_eq_true_eq, Bool.not_eq_true'] at h
  obtain ⟨he, hlen, hfit, hapart, hclear⟩ := h
  refine ⟨he, ?_, hclear⟩
  obtain hz | ⟨⟨⟨hp1, hp2⟩, hq1⟩, hq2⟩ := hlen
  · exact .inl hz
  · obtain hz | ⟨hpf, hqf⟩ := hfit
    · exact .inl hz
    · obtain hz | hd := hapart
      · exact .inl hz
      · exact .inr ⟨hp1, hp2, hq1, hq2, by omega, by omega, hd⟩

/-- The law `P` of a line's record survives every operation on it. -/
structure Line.Keeps (P : Line → Prop) : Prop where
  reset : P Line.reset
  withRings : ∀ (L : Line) (p q : RingEntry), P L → L.enabled = false → ringsAccepted p q → P (L.withRings p q)
  setUp : ∀ L : Line, P L → L.enabled = false → L.playRing.isSome = true → L.capRing.isSome = true → P L.setUp
  shutDown : ∀ L : Line, P L → P L.shutDown
  clear : ∀ L : Line, P L → L.enabled = true → P L.clear
  write : ∀ (L : Line) (w : Write) (st : Store), P L → P (L.write w st).1
  move : ∀ (c : Instr) (programs : List ProgramRecord) (L M : Line), Line.Move c programs L M → P L → P M
  stored : ∀ L : Line, P L → L.captureDue = true → P { L.stored with due := { L.due with capture := false } }
  load : ∀ (L : Line) (i : LoadInput), P L → L.loadDue = true → P (L.loadCell i).1
  boundary : ∀ L : Line, P L → P L.boundary
  frame : ∀ (L : Line) (x : Sample) (pin : Bool), P L → P (L.frame x pin)

@[simp] theorem State.line_afterReset (low cFrame mFrame : Bool) (q : List Instr) (l : Fin 4) :
    (State.afterReset low cFrame mFrame q).line l = Line.reset := by
  fin_cases l <;> rfl

@[simp] theorem State.line_frameStep (s : State) (hrx : Four Sample) (hook : Four Bool) (l : Fin 4) :
    (s.frameStep hrx hook).line l = (s.line l).frame (hrx.get l) (hook.get l) := by
  fin_cases l <;> rfl

/-- WRITE TONES reaches the tone table, its cursor and the staging record alone (R106). -/
theorem State.writeFields_eq (s : State) (start : Byte) (fields : List Word16) : ∃ tones cursor staging,
    s.writeFields start fields = { s with tones := tones, toneCursor := cursor, toneStaging := staging } := by
  have hfields (fs : List Word16) : ∀ t : State, (∃ tones cursor staging,
      t = { s with tones := tones, toneCursor := cursor, toneStaging := staging }) → ∃ tones cursor staging,
        fs.foldl State.takeField t = { s with tones := tones, toneCursor := cursor, toneStaging := staging } := by
    induction fs with
    | nil => exact fun t h => h
    | cons f fs ih =>
      rintro t ⟨_, _, _, rfl⟩
      refine ih _ ?_
      unfold State.takeField
      split <;> exact ⟨_, _, _, rfl⟩
  refine hfields fields _ ?_
  unfold State.startTones
  split <;> exact ⟨_, _, _, rfl⟩

theorem State.line_of_lines {s t : State} (h : t.lines = s.lines) (l : Fin 4) : t.line l = s.line l := by
  rw [State.line, State.line, h]

/-- A law that survives every operation on a line survives every move of the part. -/
theorem Line.Keeps.eachLine {P : Line → Prop} (k : Line.Keeps P) {c : Instr} {s t : State} (h : Sys2Proof.Machine.Move c s t) (hs : s.EachLine P) :
    t.EachLine P := by
  have hset {u : State} {l : Fin 4} {L : Line} (hu : u.lines = s.lines) (hL : P L) : (u.setLine l L).EachLine P := by
    intro i
    rw [State.line_setLine]
    split
    · exact hL
    · rw [State.line_of_lines hu]
      exact hs i
  have hsame (hu : t.lines = s.lines) : t.EachLine P := fun i => by
    rw [State.line_of_lines hu]
    exact hs i
  cases h with
  | reset => exact fun l => by rw [State.line_afterReset]; exact k.reset
  | link k => cases k <;> exact hsame rfl
  | tones start fields =>
    obtain ⟨_, _, _, h⟩ := s.writeFields_eq start fields
    exact hsame (by rw [h])
  | configure l p q hc h =>
    obtain ⟨he, hr, -⟩ := configureChecks_passed h
    exact hset rfl (k.withRings _ p q (hs l) he hr)
  | enable l hc he hp hq => exact hset (by simp) (k.setUp _ (hs l) he hp hq)
  | disable l => exact hset (by simp) (k.shutDown _ (hs l))
  | clear l he => exact hset (by simp) (k.clear _ (hs l) he)
  | line l L h => exact hset rfl (k.move _ _ _ L h (hs l))
  | store l h => exact hset (by simp) (k.stored _ (hs l) h)
  | load l hc h => exact hset (by simp) (k.load _ _ (hs l) h)
  | boundary => exact fun l => by rw [State.line_boundary]; exact k.boundary _ (hs l)
  | frame => exact fun l => by rw [State.line_frameStep]; exact k.frame _ _ _ (hs l)
  | writeLine j l => exact hset rfl (k.write _ j.write s.store (hs l))
  | _ => exact hsame rfl

theorem Line.Keeps.kept {P : Line → Prop} (k : Line.Keeps P) : Kept (State.EachLine P) :=
  kept_of_move (fun _ _ h => h) fun h hs => k.eachLine h hs

/-! ### A line's own moves by the fields they reach -/

/-- `M` differs from `L` in mode, supervision, signals and ringing alone, and in the flags of the works that belong to them. -/
def Line.Served (L M : Line) : Prop :=
  ∃ mode pendingMode autoFax background foreground mark cid cidAttenuation ring hook detector d h r,
    M = { L with
      mode := mode, pendingMode := pendingMode, autoFax := autoFax, background := background, foreground := foreground, mark := mark
      cid := cid, cidAttenuation := cidAttenuation, ring := ring, hook := hook, detector := detector
      due := { L.due with detector := d, hook := h, ring := r } }

theorem Line.Calls.served {L M : Line} {hook : Classifier} {d h : Bool}
    (hc : Line.Calls { L with hook := hook, due := { L.due with detector := d, hook := h } } M) : Line.Served L M := by
  obtain ⟨_, _, _, _, _, _, _, _, rfl, -⟩ := hc
  exact ⟨_, _, _, _, _, _, _, _, _, _, _, _, _, _, rfl⟩

/-- A line's own move serves its calls, or is one of five that reach its playout or capture side. -/
theorem Line.Move.served_or {c : Instr} {programs : List ProgramRecord} {L M : Line} (h : Line.Move c programs L M) :
    Line.Served L M ∨ (∃ v, M = L.setPlayout v) ∨ (∃ slip, M = L.addSlip slip) ∨ (∃ r, r ≤ L.unread ∧ M = L.readOut r) ∨
      M = { L with stats := .zero } ∨ (L.startDue = true ∧ M = L.start) := by
  cases h with
  | setPlayout v => exact .inr (.inl ⟨v, rfl⟩)
  | addSlip slip he => exact .inr (.inr (.inl ⟨slip, rfl⟩))
  | readOut r he hr => exact .inr (.inr (.inr (.inl ⟨r, hr, rfl⟩)))
  | clearStats => exact .inr (.inr (.inr (.inr (.inl rfl))))
  | start h => exact .inr (.inr (.inr (.inr (.inr ⟨h, rfl⟩))))
  | startContext record v =>
    left
    cases v <;> exact ⟨_, _, _, _, _, _, _, _, _, _, _, _, _, _, rfl⟩
  | stopProgram v =>
    left
    cases v <;> exact ⟨_, _, _, _, _, _, _, _, _, _, _, _, _, _, rfl⟩
  | stopRinging =>
    left
    obtain ⟨_, _, _, _, _, _, _, _, h, -⟩ := L.endRinging_calls .stop
    unfold Line.stopRinging
    dsimp only
    rw [h]
    exact ⟨_, _, _, _, _, _, _, _, _, _, _, _, _, _, rfl⟩
  | takeDetector => exact .inl (Line.Calls.served (L.takeDetector_calls programs))
  | takeHook =>
    obtain ⟨hook, h⟩ := L.takeHook_calls programs
    exact .inl h.served
  | takeRing =>
    left
    obtain ⟨_, _, _, _, _, _, _, _, h, -⟩ := L.takeRing_calls
    rw [h]
    exact ⟨_, _, _, _, _, _, _, _, _, _, _, _, _, _, rfl⟩
  | _ => exact .inl ⟨_, _, _, _, _, _, _, _, _, _, _, _, _, _, rfl⟩

/-! ### What the other operations reach -/

section Frames

variable (L : Line)

theorem Line.write_frame (w : Write) (st : Store) : ∃ anchors playout run stats window,
    (L.write w st).1 = { L with anchors := anchors, playout := playout, run := run, stats := stats, window := window } := by
  unfold Line.write Line.settledAnchor
  dsimp only
  split
  · split <;> split <;> exact ⟨_, _, _, _, _, rfl⟩
  · exact ⟨_, _, _, _, _, rfl⟩

theorem Line.closeCapture_frame : ∃ capFirst capSecond,
    L.closeCapture = { L with capFirst := capFirst, capSecond := capSecond, filling := L.filling.other } := by
  unfold Line.closeCapture Line.setCapture
  cases L.filling <;> exact ⟨_, _, rfl⟩

theorem Line.stepRing_counts (h : L.ring.state.turns = false) :
    L.stepRing = (L.setRing L.ring.state.counted, []) := by
  cases hr : L.ring.state <;>
    simp [hr, RingState.turns, RingState.endsBurst, RingState.beginsBurst, RingState.beginsCid] at h <;>
    simp [Line.stepRing, hr, RingState.counted, Nat.not_le.mpr, h]
  simp [Line.setRing, ← hr]

/-- What a boundary does with the ring: a step that only counts is taken, one that turns is left (log entry 5). -/
theorem Line.boundaryRing_eq : L.boundaryRing =
    if L.ring.state.turns then { L with due := { L.due with ring := true } } else L.setRing L.ring.state.counted := by
  unfold Line.boundaryRing
  split
  · rfl
  · rw [L.stepRing_counts (Bool.eq_false_iff.mpr (by assumption))]

theorem Line.boundary_frame : ∃ capFirst capSecond filling mark closedMark rs start capture detector hook x,
    L.boundary = { L with
      capFirst := capFirst, capSecond := capSecond, filling := filling, mark := mark, closedMark := closedMark
      ring := { L.ring with state := rs }
      due := { L.due with start := start, capture := capture, detector := detector, hook := hook, ring := x } } := by
  unfold Line.boundary
  split
  · split
    · rw [Line.boundaryRing_eq]
      obtain ⟨_, _, h⟩ := L.closeCapture_frame
      rw [h]
      dsimp only
      split <;> exact ⟨_, _, _, _, _, _, _, _, _, _, _, rfl⟩
    · exact ⟨_, _, _, _, _, _, _, _, _, _, _, rfl⟩
  · exact ⟨_, _, _, _, _, _, _, _, _, _, _, rfl⟩

theorem Line.receive_frame (x : Sample) : ∃ capFirst capSecond, L.receive x = { L with capFirst := capFirst, capSecond := capSecond } := by
  unfold Line.receive Line.setCapture
  dsimp only
  split <;> exact ⟨_, _, rfl⟩

theorem Line.send_frame : ∃ playing sent load, L.send = { L with playing := playing, sent := sent, due := { L.due with load := load } } := by
  unfold Line.send
  split <;> exact ⟨_, _, _, rfl⟩

theorem Line.frame_frame (x : Sample) (pin : Bool) : ∃ capFirst capSecond playing sent mark load,
    L.frame x pin = { L with
      hookPin := pin, capFirst := capFirst, capSecond := capSecond, playing := playing, sent := sent, mark := mark
      due := { L.due with load := load } } := by
  unfold Line.frame
  dsimp only
  split
  · obtain ⟨_, _, hr⟩ := Line.receive_frame { L with hookPin := pin } x
    obtain ⟨_, _, _, hs⟩ := Line.send_frame (Line.receive { L with hookPin := pin } x)
    rw [hs, hr]
    exact ⟨_, _, _, _, _, _, rfl⟩
  · exact ⟨_, _, _, _, _, _, rfl⟩

end Frames

/-! ### Arithmetic of counters and clamps -/

theorem countUp_le (top n : Nat) : countUp top n ≤ top := by
  unfold countUp
  split <;> omega

theorem countBy_le (top k n : Nat) : countBy top k n ≤ top := by
  unfold countBy
  split <;> omega

theorem clampNat_bounds {lo hi : Nat} (h : lo ≤ hi) (n : Nat) : lo ≤ clampNat lo hi n ∧ clampNat lo hi n ≤ hi := by
  unfold clampNat
  split
  · omega
  · split <;> omega

theorem clampSlip_eq (x : Int) : clampSlip x = max (-40) (min 40 x) := by
  unfold clampSlip clampInt
  split
  · omega
  · split <;> omega

/-! ### The pending slip (R82) -/

theorem Line.stageSlip_slipLaw {L : Line} (output : Bool) (cell : List Sample) (h : L.SlipLaw) : (L.stageSlip output cell).SlipLaw := by
  obtain ⟨hlo, hhi⟩ := h
  unfold Line.stageSlip
  split
  · unfold Line.SlipLaw
    dsimp only
    obtain hs | hs | hs := Int.lt_trichotomy L.pendingSlip 0
    · rw [Int.sign_eq_neg_one_of_neg hs]
      omega
    · rw [hs]
      decide
    · rw [Int.sign_eq_one_of_pos hs]
      omega
  · exact ⟨hlo, hhi⟩

theorem clampSlip_law (L : Line) (x : Int) : Line.SlipLaw { L with pendingSlip := clampSlip x } := by
  unfold Line.SlipLaw
  dsimp only
  rw [clampSlip_eq]
  omega

theorem Line.stageWindow_slipLaw {L : Line} (h : L.SlipLaw) : L.stageWindow.SlipLaw := by
  unfold Line.stageWindow
  split
  · exact clampSlip_law L _
  · exact h

theorem Line.Calls.slipLaw {L M : Line} (hc : Line.Calls L M) (h : L.SlipLaw) : M.SlipLaw := by
  obtain ⟨_, _, _, _, _, _, _, _, rfl, -⟩ := hc
  exact h

theorem Line.loadCell_slipLaw {L : Line} (i : LoadInput) (h : L.SlipLaw) : (L.loadCell i).1.SlipLaw := by
  unfold Line.loadCell
  dsimp only
  generalize Line.finalCell _ i _ = cell
  generalize Line.carriesOutput _ = output
  have hc : (L.stageMode.1.stageContent i.slot).SlipLaw := by
    obtain ⟨_, _, _, _, _, hc⟩ := L.stageMode.1.stageContent_frame i.slot
    rw [hc]
    exact L.stageMode_calls.slipLaw h
  have hr : ((L.stageMode.1.stageContent i.slot).stageRender i).1.SlipLaw := by
    obtain ⟨_, hr⟩ := (L.stageMode.1.stageContent i.slot).stageRender_calls i
    exact hr.slipLaw hc
  have hf := (Line.stageFeed_calls _ cell).slipLaw (Line.stageSlip_slipLaw output cell hr)
  refine Line.stageWindow_slipLaw (L := Line.stageLoad _ cell _) ?_
  unfold Line.stageLoad Line.setHalf
  split <;> exact hf

theorem Line.slipLaw_keeps : Line.Keeps Line.SlipLaw where
  reset := ⟨by decide, by decide⟩
  withRings L p q h _ _ := by
    unfold Line.withRings
    split <;> exact h
  setUp _ _ _ _ _ := by simp [Line.SlipLaw, Line.setUp]
  shutDown _ _ := by simp [Line.SlipLaw, Line.shutDown, Line.reset]
  clear _ h _ := h
  write L w st h := by
    obtain ⟨_, _, _, _, _, hw⟩ := L.write_frame w st
    rw [hw]
    exact h
  move c programs L M hm h := by
    obtain ⟨_, _, _, _, _, _, _, _, _, _, _, _, _, _, rfl⟩ | ⟨v, rfl⟩ | ⟨slip, rfl⟩ | ⟨r, -, rfl⟩ | rfl | ⟨-, rfl⟩ := hm.served_or
    case inr.inr.inl => exact clampSlip_law L _
    all_goals exact h
  stored L h _ := by
    obtain ⟨_, _, _, _, hs⟩ := L.stored_frame
    rw [hs]
    exact h
  load _ i h _ := Line.loadCell_slipLaw i h
  boundary L h := by
    obtain ⟨_, _, _, _, _, _, _, _, _, _, _, hb⟩ := L.boundary_frame
    rw [hb]
    exact h
  frame L x pin h := by
    obtain ⟨_, _, _, _, _, _, hf⟩ := L.frame_frame x pin
    rw [hf]
    exact h

/-! ### The statistics (R89) -/

theorem Line.Calls.statsLaw {L M : Line} (hc : Line.Calls L M) (h : L.StatsLaw) : M.StatsLaw := by
  obtain ⟨_, _, _, _, _, _, _, _, rfl, -⟩ := hc
  exact h

section Stats

variable {L : Line}

theorem Line.stageContent_statsLaw (slot : StoreCell) (h : L.StatsLaw) : (L.stageContent slot).StatsLaw := by
  have hn : Stats.InRange (if L.playout = .idle then L.stats else { L.stats with concealed := countUp 65535 L.stats.concealed }) := by
    obtain ⟨h1, h2, h3, h4, h5, h6, h7, h8⟩ := h
    split
    · exact ⟨h1, h2, h3, h4, h5, h6, h7, h8⟩
    · exact ⟨h1, h2, h3, countUp_le _ _, h5, h6, h7, h8⟩
  unfold Line.stageContent Line.emptyLoaded
  split
  · exact h
  · dsimp only
    split <;> exact hn

theorem Line.stageRender_statsLaw (i : LoadInput) (h : L.StatsLaw) : (L.stageRender i).1.StatsLaw := by
  obtain ⟨h1, h2, h3, h4, h5, h6, h7, h8⟩ := h
  unfold Line.stageRender
  split
  · refine (Line.renderStep_calls _ _ _ _ _).statsLaw ?_
    split
    · exact ⟨h1, h2, h3, h4, countUp_le _ _, h6, h7, h8⟩
    · exact ⟨h1, h2, h3, h4, h5, h6, h7, h8⟩
  · exact ⟨h1, h2, h3, h4, h5, h6, h7, h8⟩

theorem Line.stageSlip_statsLaw (output : Bool) (cell : List Sample) (h : L.StatsLaw) : (L.stageSlip output cell).StatsLaw := by
  obtain ⟨h1, h2, h3, h4, h5, h6, h7, h8⟩ := h
  unfold Line.stageSlip Line.StatsLaw
  split
  · dsimp only
    split
    · exact ⟨h1, h2, h3, h4, h5, countUp_le _ _, h7, h8⟩
    · exact ⟨h1, h2, h3, h4, h5, h6, countUp_le _ _, h8⟩
  · exact ⟨h1, h2, h3, h4, h5, h6, h7, h8⟩

theorem Line.loadCell_statsLaw (i : LoadInput) (h : L.StatsLaw) : (L.loadCell i).1.StatsLaw := by
  unfold Line.loadCell
  dsimp only
  generalize Line.finalCell _ i _ = cell
  generalize Line.carriesOutput _ = output
  have hr := Line.stageRender_statsLaw i (Line.stageContent_statsLaw i.slot (L.stageMode_calls.statsLaw h))
  have hf := (Line.stageFeed_calls _ cell).statsLaw (Line.stageSlip_statsLaw output cell hr)
  obtain ⟨_, _, hw⟩ := Line.stageWindow_frame (Line.stageLoad _ cell _)
  rw [hw]
  unfold Line.stageLoad Line.setHalf
  split <;> exact hf

theorem Line.write_statsLaw (w : Write) (st : Store) (h : L.StatsLaw) : (L.write w st).1.StatsLaw := by
  have hs : (L.settledAnchor w).StatsLaw := by
    unfold Line.settledAnchor
    split <;> exact h
  obtain ⟨h1, h2, h3, h4, h5, h6, h7, h8⟩ := hs
  unfold Line.write
  dsimp only
  split
  · split
    · exact ⟨countBy_le _ _ _, countBy_le _ _ _, countBy_le _ _ _, h4, h5, h6, h7, h8⟩
    · exact ⟨h1, h2, h3, h4, h5, h6, h7, h8⟩
  · exact h

end Stats

theorem Line.statsLaw_zero (L : Line) : Line.StatsLaw { L with stats := .zero } := by
  simp [Line.StatsLaw, Stats.InRange, Stats.zero]

theorem Line.statsLaw_keeps : Line.Keeps Line.StatsLaw where
  reset := Line.statsLaw_zero Line.reset
  withRings L p q h _ _ := by
    unfold Line.withRings
    split <;> exact h
  setUp _ h _ _ _ := h
  shutDown L _ := Line.statsLaw_zero L.shutDown
  clear _ h _ := h
  write _ w st h := Line.write_statsLaw w st h
  move c programs L M hm h := by
    obtain ⟨_, _, _, _, _, _, _, _, _, _, _, _, _, _, rfl⟩ | ⟨v, rfl⟩ | ⟨slip, rfl⟩ | ⟨r, -, rfl⟩ | rfl | ⟨-, rfl⟩ := hm.served_or
    case inr.inr.inr.inr.inl => exact L.statsLaw_zero
    all_goals exact h
  stored L h _ := by
    obtain ⟨h1, h2, h3, h4, h5, h6, h7, h8⟩ := h
    unfold Line.stored
    split
    · exact ⟨h1, h2, h3, h4, h5, h6, h7, h8⟩
    · exact ⟨h1, h2, h3, h4, h5, h6, h7, countUp_le _ _⟩
  load _ i h _ := Line.loadCell_statsLaw i h
  boundary L h := by
    obtain ⟨_, _, _, _, _, _, _, _, _, _, _, hb⟩ := L.boundary_frame
    rw [hb]
    exact h
  frame L x pin h := by
    obtain ⟨_, _, _, _, _, _, hf⟩ := L.frame_frame x pin
    rw [hf]
    exact h

/-! ### The entries of an ENABLED line, its depths and its indices (R7, R8, R19, R25, R95) -/

/-- The entries after CONFIGURE LINE obey their law. -/
theorem Line.withRings_ringLaw {L : Line} {p q : RingEntry} (he : L.enabled = false) (h : ringsAccepted p q) : (L.withRings p q).RingLaw := by
  unfold Line.withRings Line.RingLaw
  split
  · simp [he]
  case isFalse hz =>
    obtain h | ⟨h1, h2, h3, h4, h5, h6, -⟩ := h
    · exact absurd h hz
    · simp only [Option.isSome_some, Option.some.injEq, forall_eq', implies_true, true_and]
      exact ⟨⟨h1, h2, h5⟩, h3, h4, h6⟩

/-- In an ENABLED line with lawful entries both rings are there, with the lengths of R17. -/
theorem Line.RingLaw.present {L : Line} (h : L.RingLaw) (he : L.enabled = true) :
    ∃ p q, L.playRing = some p ∧ L.capRing = some q ∧ 8 ≤ p.len ∧ p.len ≤ 256 ∧ p.base + p.len ≤ 1024 ∧ 4 ≤ q.len ∧ q.len ≤ 64 ∧
      q.base + q.len ≤ 1024 := by
  obtain ⟨hsame, hsome, hp, hq⟩ := h
  obtain ⟨p, hpp⟩ := Option.isSome_iff_exists.mp (hsome he)
  obtain ⟨q, hqq⟩ := Option.isSome_iff_exists.mp (hsame ▸ hsome he)
  obtain ⟨hp1, hp2, hp3⟩ := hp p hpp
  obtain ⟨hq1, hq2, hq3⟩ := hq q hqq
  exact ⟨p, q, hpp, hqq, hp1, hp2, hp3, hq1, hq2, hq3⟩

/-- The ring lengths of an ENABLED line with lawful entries. -/
theorem Line.RingLaw.lengths {L : Line} (h : L.RingLaw) (he : L.enabled = true) :
    8 ≤ L.lp ∧ L.lp ≤ 256 ∧ L.playBase + L.lp ≤ 1024 ∧ 4 ≤ L.lc ∧ L.lc ≤ 64 ∧ L.capBase + L.lc ≤ 1024 := by
  obtain ⟨p, q, hp, hq, h1, h2, h3, h4, h5, h6⟩ := h.present he
  simp only [Line.lp, Line.lc, Line.playBase, Line.capBase, hp, hq, Option.map_some, Option.getD_some]
  exact ⟨h1, h2, h3, h4, h5, h6⟩

/-- A line enabled with both entries obeys the law of its entries. -/
theorem Line.RingLaw.of_enabled {L M : Line} (h : L.RingLaw) (hp : M.playRing = L.playRing) (hc : M.capRing = L.capRing)
    (he : M.enabled = true → L.playRing.isSome = true) : M.RingLaw := by
  obtain ⟨h1, h2, h3, h4⟩ := h
  exact ⟨by rw [hp, hc, h1], fun hm => by rw [hp]; exact he hm, fun e h => h3 e (hp ▸ h), fun e h => h4 e (hc ▸ h)⟩

theorem Line.ringLaw_keeps : Line.Keeps Line.RingLaw where
  reset := by simp [Line.RingLaw, Line.reset]
  withRings L p q _ he hr := Line.withRings_ringLaw he hr
  setUp L h _ hp _ := h.of_enabled rfl rfl fun _ => hp
  shutDown L h := h.of_enabled rfl rfl fun hm => nomatch hm
  clear _ h _ := h
  write L w st h := by
    obtain ⟨_, _, _, _, _, hw⟩ := L.write_frame w st
    rw [hw]
    exact h
  move c programs L M hm h := by
    obtain ⟨_, _, _, _, _, _, _, _, _, _, _, _, _, _, rfl⟩ | ⟨v, rfl⟩ | ⟨slip, rfl⟩ | ⟨r, -, rfl⟩ | rfl | ⟨-, rfl⟩ := hm.served_or <;>
      exact h
  stored L h _ := by
    obtain ⟨_, _, _, _, hs⟩ := L.stored_frame
    rw [hs]
    exact h
  load L i h _ := h.of_enabled (L.loadCell_timeline i).playRing (L.loadCell_timeline i).capRing fun hm =>
    h.2.1 ((L.loadCell_timeline i).enabled ▸ hm)
  boundary L h := by
    obtain ⟨_, _, _, _, _, _, _, _, _, _, _, hb⟩ := L.boundary_frame
    rw [hb]
    exact h
  frame L x pin h := by
    obtain ⟨_, _, _, _, _, _, hf⟩ := L.frame_frame x pin
    rw [hf]
    exact h

/-- Two laws of a line kept together, the second with the first's help. -/
theorem Kept.and_eachLine {P Q : Line → Prop} (h : Line.Keeps fun L => P L ∧ Q L) : Kept fun s => s.EachLine P ∧ s.EachLine Q := by
  have hiff (s : State) : s.EachLine (fun L => P L ∧ Q L) ↔ s.EachLine P ∧ s.EachLine Q := forall_and
  exact fun s t hs ht => (hiff t).mp (h.kept s t ((hiff s).mpr hs) ht)

/-- A load leaves the configuration and the threshold. -/
theorem Line.loadCell_threshold (L : Line) (i : LoadInput) :
    (L.loadCell i).1.capThreshold = L.capThreshold ∧ (L.loadCell i).1.unread = L.unread ∧ (L.loadCell i).1.capRead = L.capRead ∧
      (L.loadCell i).1.capWrite = L.capWrite := by
  obtain ⟨_, _, _, _, _, _, _, _, _, _, _, _, _, _, _, _, _, _, _, h, -⟩ := L.loadCell_frame i
  rw [h]
  unfold Line.setHalf
  split <;> exact ⟨rfl, rfl, rfl, rfl⟩

theorem Line.depthLaw_keeps : Line.Keeps fun L => L.RingLaw ∧ L.DepthLaw where
  reset := ⟨Line.ringLaw_keeps.reset, fun h => nomatch h⟩
  withRings L p q h he hr := by
    refine ⟨Line.withRings_ringLaw he hr, fun hm => ?_⟩
    unfold Line.withRings at hm
    split at hm <;> simp [he] at hm
  setUp L h he hp hq := by
    have hring := Line.ringLaw_keeps.setUp L h.1 he hp hq
    refine ⟨hring, fun hm => ?_⟩
    obtain ⟨h1, -, -, h4, -, -⟩ := hring.lengths hm
    have hlp : L.setUp.lp = L.lp := rfl
    have hlc : L.setUp.lc = L.lc := rfl
    rw [hlp] at h1
    rw [hlc] at h4
    obtain ⟨hv1, hv2⟩ := clampNat_bounds (show 1 ≤ L.lp - 1 by omega) L.config.voiceDepth
    obtain ⟨hf1, hf2⟩ := clampNat_bounds (show 1 ≤ L.lp - 1 by omega) L.config.faxDepth
    obtain ⟨ht1, ht2⟩ := clampNat_bounds (show 1 ≤ L.lc by omega) L.capThreshold
    rw [hlp, hlc]
    exact ⟨hv1, show clampNat 1 (L.lp - 1) L.config.voiceDepth + 1 ≤ L.lp by omega, hf1,
      show clampNat 1 (L.lp - 1) L.config.faxDepth + 1 ≤ L.lp by omega, ht1, ht2⟩
  shutDown L h := ⟨Line.ringLaw_keeps.shutDown L h.1, fun hm => nomatch hm⟩
  clear _ h _ := h
  write L w st h := by
    obtain ⟨_, _, _, _, _, hw⟩ := L.write_frame w st
    rw [hw]
    exact h
  move c programs L M hm h := by
    obtain ⟨_, _, _, _, _, _, _, _, _, _, _, _, _, _, rfl⟩ | ⟨v, rfl⟩ | ⟨slip, rfl⟩ | ⟨r, -, rfl⟩ | rfl | ⟨-, rfl⟩ := hm.served_or
    case inr.inl =>
      refine ⟨h.1, fun he => ?_⟩
      obtain ⟨p, q, hp, hq, h1, -, -, h4, -, -⟩ := h.1.present he
      have hlp : (L.setPlayout v).lp = p.len := by simp [Line.lp, Line.setPlayout, hp]
      have hlc : (L.setPlayout v).lc = q.len := by simp [Line.lc, Line.setPlayout, hq]
      have hd : L.depthTop = p.len - 1 := by simp [Line.depthTop, hp]
      have ht : L.thresholdTop = q.len := by simp [Line.thresholdTop, hq]
      obtain ⟨hv1, hv2⟩ := clampNat_bounds (show 1 ≤ L.depthTop by omega) v.voiceDepth.toNat
      obtain ⟨hf1, hf2⟩ := clampNat_bounds (show 1 ≤ L.depthTop by omega) v.faxDepth.toNat
      obtain ⟨ht1, ht2⟩ := clampNat_bounds (show 1 ≤ L.thresholdTop by omega) v.capture.toNat
      rw [hlp, hlc]
      exact ⟨hv1, show clampNat 1 L.depthTop v.voiceDepth.toNat + 1 ≤ p.len by omega, hf1,
        show clampNat 1 L.depthTop v.faxDepth.toNat + 1 ≤ p.len by omega, ht1,
        show clampNat 1 L.thresholdTop v.capture.toNat ≤ q.len by omega⟩
    all_goals exact h
  stored L h _ := by
    obtain ⟨_, _, _, _, hs⟩ := L.stored_frame
    rw [hs]
    exact h
  load L i h hd := by
    refine ⟨Line.ringLaw_keeps.load L i h.1 hd, fun he => ?_⟩
    have ht := L.loadCell_timeline i
    have hlp : (L.loadCell i).1.lp = L.lp := by simp only [Line.lp, ht.playRing]
    have hlc : (L.loadCell i).1.lc = L.lc := by simp only [Line.lc, ht.capRing]
    rw [hlp, hlc, ht.config, (L.loadCell_threshold i).1]
    exact h.2 (ht.enabled ▸ he)
  boundary L h := by
    obtain ⟨_, _, _, _, _, _, _, _, _, _, _, hb⟩ := L.boundary_frame
    rw [hb]
    exact h
  frame L x pin h := by
    obtain ⟨_, _, _, _, _, _, hf⟩ := L.frame_frame x pin
    rw [hf]
    exact h

theorem Line.stored_indexLaw {L : Line} (h : L.IndexLaw) : L.stored.IndexLaw := by
  unfold Line.stored
  split
  case isTrue hroom =>
    intro he
    obtain ⟨h1, h2, h3, h4⟩ := h he
    exact ⟨h1, hroom, h3, by rw [h4, Nat.mod_add_mod, Nat.add_assoc]; rfl⟩
  case isFalse hfull =>
    intro he
    obtain ⟨h1, h2, h3, h4⟩ := h he
    have hlc : 0 < L.lc := by omega
    refine ⟨h1, h2, Nat.mod_lt _ hlc, ?_⟩
    show (L.capWrite + 1) % L.lc = ((L.capRead + 1) % L.lc + L.unread) % L.lc
    rw [h4, Nat.mod_add_mod, Nat.mod_add_mod, Nat.add_right_comm]

theorem Line.indexLaw_keeps : Line.Keeps fun L => L.RingLaw ∧ L.IndexLaw where
  reset := ⟨Line.ringLaw_keeps.reset, fun h => nomatch h⟩
  withRings L p q h he hr := by
    refine ⟨Line.withRings_ringLaw he hr, fun hm => ?_⟩
    unfold Line.withRings at hm
    split at hm <;> simp [he] at hm
  setUp L h he hp hq := by
    have hring := Line.ringLaw_keeps.setUp L h.1 he hp hq
    refine ⟨hring, fun hm => ?_⟩
    obtain ⟨h1, -, -, h4, -, -⟩ := hring.lengths hm
    exact ⟨show 0 < L.setUp.lp by omega, Nat.zero_le _, show 0 < L.setUp.lc by omega, (Nat.zero_mod _).symm⟩
  shutDown L h := ⟨Line.ringLaw_keeps.shutDown L h.1, fun hm => nomatch hm⟩
  clear _ h _ := h
  write L w st h := by
    obtain ⟨_, _, _, _, _, hw⟩ := L.write_frame w st
    rw [hw]
    exact h
  move c programs L M hm h := by
    obtain ⟨_, _, _, _, _, _, _, _, _, _, _, _, _, _, rfl⟩ | ⟨v, rfl⟩ | ⟨slip, rfl⟩ | ⟨r, hr, rfl⟩ | rfl | ⟨-, rfl⟩ := hm.served_or
    case inr.inr.inr.inl =>
      refine ⟨h.1, fun he => ?_⟩
      obtain ⟨h1, h2, h3, h4⟩ := h.2 he
      refine ⟨h1, show L.unread - r ≤ L.lc by omega, Nat.mod_lt _ (show 0 < L.lc by omega), ?_⟩
      show L.capWrite = ((L.capRead + r) % L.lc + (L.unread - r)) % L.lc
      rw [h4, Nat.mod_add_mod, Nat.add_assoc, Nat.add_sub_cancel' hr]
    all_goals exact h
  stored L h hd := ⟨Line.ringLaw_keeps.stored L h.1 hd, Line.stored_indexLaw h.2⟩
  load L i h hd := by
    refine ⟨Line.ringLaw_keeps.load L i h.1 hd, fun he => ?_⟩
    have ht := L.loadCell_timeline i
    obtain ⟨-, hu, hr, hw⟩ := L.loadCell_threshold i
    have hlp : (L.loadCell i).1.lp = L.lp := by simp only [Line.lp, ht.playRing]
    have hlc : (L.loadCell i).1.lc = L.lc := by simp only [Line.lc, ht.capRing]
    obtain ⟨h1, h2, h3, h4⟩ := h.2 (ht.enabled ▸ he)
    rw [hlp, hlc, hu, hr, hw, ht.hs]
    exact ⟨Nat.mod_lt _ (by omega), h2, h3, h4⟩
  boundary L h := by
    obtain ⟨_, _, _, _, _, _, _, _, _, _, _, hb⟩ := L.boundary_frame
    rw [hb]
    exact h
  frame L x pin h := by
    obtain ⟨_, _, _, _, _, _, hf⟩ := L.frame_frame x pin
    rw [hf]
    exact h

end Sys2Proof.Machine
end

section
/-! Laws of a line's generator contexts, ringing and caller identification under every step: the context stack (R112), the bit accumulator of an FSK
(R130), ring trip (R155), and the on-hook CID with its context (R134, R136). -/

namespace Sys2Proof.Machine

/-! ### Stages that reach no context -/

section Frames

variable (L : Line)

theorem Line.autoFaxAction_frame : ∃ pendingMode, L.autoFaxAction = { L with pendingMode := pendingMode } := by
  unfold Line.autoFaxAction
  split <;> exact ⟨_, rfl⟩

theorem Line.stepCalling_frame (c : CellClass) : ∃ pendingMode detector,
    (L.stepCalling c).1 = { L with pendingMode := pendingMode, detector := detector } := by
  unfold Line.stepCalling
  dsimp only
  split
  · obtain ⟨_, h⟩ := Line.autoFaxAction_frame { L with detector := { L.detector with
      faxCalling := runCount 100 (c == .faxCalling) L.detector.faxCalling } }
    exact ⟨_, _, h⟩
  · exact ⟨_, _, rfl⟩

theorem Line.stepCaptureAnswer_frame (c : CellClass) : ∃ pendingMode detector,
    (L.stepCaptureAnswer c).1 = { L with pendingMode := pendingMode, detector := detector } := by
  unfold Line.stepCaptureAnswer
  dsimp only
  split
  · obtain ⟨_, h⟩ := Line.autoFaxAction_frame { L with detector := { L.detector with
      captureAnswer := runCount 60 (c == .faxAnswer) L.detector.captureAnswer } }
    exact ⟨_, _, h⟩
  · exact ⟨_, _, rfl⟩

theorem Line.stageFeed_frame (cell : List Sample) : ∃ pendingMode detector,
    (L.stageFeed cell).1 = { L with pendingMode := pendingMode, detector := detector } := by
  unfold Line.stageFeed Line.stepPlayoutAnswer
  split
  · dsimp only
    split
    · obtain ⟨_, h⟩ := Line.autoFaxAction_frame { L with detector := { L.detector with
        playoutAnswer := runCount 60 (classify cell == .faxAnswer) L.detector.playoutAnswer } }
      exact ⟨_, _, h⟩
    · exact ⟨_, _, rfl⟩
  · exact ⟨_, _, rfl⟩

theorem Line.stageSlip_frame (output : Bool) (cell : List Sample) : ∃ pendingSlip patience stats,
    L.stageSlip output cell = { L with pendingSlip := pendingSlip, patience := patience, stats := stats } := by
  unfold Line.stageSlip
  split <;> exact ⟨_, _, _, rfl⟩

/-- From its slip stage on a load reaches neither a context, nor ringing, nor the CID buffer, nor the hook side. -/
theorem Line.loadCell_signals (i : LoadInput) : ∃ R, R = ((L.stageMode.1.stageContent i.slot).stageRender i).1 ∧
    (L.loadCell i).1.foreground = R.foreground ∧ (L.loadCell i).1.background = R.background ∧ (L.loadCell i).1.ring = R.ring ∧
    (L.loadCell i).1.cid = R.cid ∧ (L.loadCell i).1.hook = R.hook ∧ (L.loadCell i).1.enabled = R.enabled := by
  refine ⟨_, rfl, ?_⟩
  unfold Line.loadCell
  dsimp only
  generalize Line.finalCell _ i _ = cell
  generalize Line.carriesOutput _ = output
  generalize ((L.stageMode.1.stageContent i.slot).stageRender i).1 = R
  obtain ⟨_, _, _, hs⟩ := R.stageSlip_frame output cell
  obtain ⟨_, _, hf⟩ := (R.stageSlip output cell).stageFeed_frame cell
  obtain ⟨_, _, hw⟩ := (Line.stageLoad ((R.stageSlip output cell).stageFeed cell).1 cell (R.slipOfCell output cell)).stageWindow_frame
  rw [hw, hf, hs]
  unfold Line.touchMark Line.stageLoad Line.setHalf
  split <;> exact ⟨rfl, rfl, rfl, rfl, rfl, rfl⟩

end Frames

/-! ### The ACTIVE context -/

theorem Line.activeContext_some {L : Line} {v : Level} {c : Context} (h : L.activeContext = some (v, c)) :
    L.contextAt v = some c ∧ c.state = .active := by
  unfold Line.activeContext at h
  split at h
  · split at h
    · cases h
      exact ⟨by assumption, by assumption⟩
    · unfold Line.activeContext.backgroundOf at h
      split at h
      · split at h
        · cases h
          exact ⟨by assumption, by assumption⟩
        · cases h
      · cases h
  · unfold Line.activeContext.backgroundOf at h
    split at h
    · split at h
      · cases h
        exact ⟨by assumption, by assumption⟩
      · cases h
    · cases h

/-! ### The bit accumulator of an FSK (R129, R130) -/

theorem Fsk.advance_accumulator_lt (onHook : Bool) (m : CidMessage) {f : Fsk} (h : f.accumulator < 20) :
    (f.advance onHook m).accumulator < 20 := by
  unfold Fsk.advance
  split
  · exact h
  · dsimp only
    split
    · show f.accumulator + 3 - 20 < 20
      omega
    · show f.accumulator + 3 < 20
      omega

theorem Fsk.after_accumulator_lt (onHook : Bool) (m : CidMessage) (n : Nat) {f : Fsk} (h : f.accumulator < 20) :
    (f.after onHook m n).accumulator < 20 := by
  induction n generalizing f with
  | zero => exact h
  | succ n ih => exact ih (Fsk.advance_accumulator_lt onHook m h)

theorem Line.fskOf_accumulator_lt (L : Line) {f : Option Fsk} (h : ∀ x, f = some x → x.accumulator < 20) :
    (L.fskOf f).accumulator < 20 := by
  cases f with
  | none => exact Nat.zero_lt_succ _
  | some x => exact h x rfl

theorem Line.alertNext_fsk {L : Line} {tones : List ToneEntry} {r r' : AlertRun} (h : L.alertNext tones r = .inl r')
    (hr : ∀ x, r.fsk = some x → x.accumulator < 20) : ∀ x, r'.fsk = some x → x.accumulator < 20 := by
  unfold Line.alertNext at h
  split at h <;> (try dsimp only at h) <;> split at h <;> cases h
  case h_4.isFalse =>
    intro x hx
    rw [← Option.some.inj hx]
    exact Fsk.after_accumulator_lt false L.cidMessage 40 (L.fskOf_accumulator_lt hr)
  all_goals exact hr

/-! ### Laws of the contexts alone -/

/-- The law `P` speaks of a line's contexts alone, and survives what is done to them one by one. -/
structure Line.KeepsContexts (P : Line → Prop) : Prop where
  same : ∀ L M : Line, M.foreground = L.foreground → M.background = L.background → P L → P M
  empty : ∀ L : Line, L.foreground = none → L.background = none → P L
  dropForeground : ∀ L : Line, P L → P L.dropForeground
  dropBackground : ∀ L : Line, P L → P L.dropBackground
  putForeground : ∀ (L : Line) (c : Context), c.state = .active → c.FskLaw → P L → P (L.putForeground c)
  putBackground : ∀ (L : Line) (c : Context), c.state = L.startState .background → c.FskLaw → P L → P { L with background := some c }
  goOn : ∀ (L : Line) (v : Level) (c x : Context), L.contextAt v = some c → x.state = c.state → (c.FskLaw → x.FskLaw) → P L →
    P (L.setContext v x)

namespace Line.KeepsContexts

variable {P : Line → Prop} (k : Line.KeepsContexts P) {L : Line}

include k

theorem ringIdle (h : P L) : P L.ringIdle := k.same L _ rfl rfl h

theorem endOnHookCid (h : P L) : P L.endOnHookCid := by
  unfold Line.endOnHookCid
  dsimp only
  split
  · exact k.dropForeground _ (k.same L _ rfl rfl h)
  · exact k.same L _ rfl rfl h

theorem endOffHookCid (h : P L) : P L.endOffHookCid := k.dropForeground _ (k.same L _ rfl rfl h)

theorem afterCid (h : P L) : P L.afterCid.1 := by
  unfold Line.afterCid
  split
  · split <;> exact k.same L _ rfl rfl h
  · split <;> exact k.same L _ rfl rfl h
  · exact h

theorem endRinging (c : AbortCause) (h : P L) : P (L.endRinging c).1 := by
  unfold Line.endRinging
  split
  · exact k.ringIdle (k.endOnHookCid h)
  · exact k.ringIdle h

theorem stageMode (h : P L) : P L.stageMode.1 := by
  have hf : P L.modeForeground.1 := by
    unfold Line.modeForeground
    split
    · exact k.afterCid (k.endOnHookCid h)
    · split
      · split
        · exact k.endOffHookCid h
        · exact k.dropForeground _ h
        · exact k.dropForeground _ h
      · exact h
  have hb : P L.modeForeground.1.modeBackground.1 := by
    unfold Line.modeBackground
    split
    · exact k.dropBackground _ hf
    · exact hf
  unfold Line.stageMode
  split
  · exact k.same L.modeForeground.1.modeBackground.1 _ rfl rfl hb
  · exact h

theorem dropContext (v : Level) (h : P L) : P (L.dropContext v) := by
  cases v
  · exact k.dropBackground _ h
  · exact k.dropForeground _ h

theorem renderStep (tones : List ToneEntry) (programs : List ProgramRecord) {v : Level} {c : Context} (hc : L.contextAt v = some c)
    (h : P L) : P (L.renderStep tones programs v c).1 := by
  unfold Line.renderStep
  split
  · split
    · exact k.goOn L v c _ hc rfl (fun _ => trivial) h
    · exact k.dropContext v h
  next f hk =>
    dsimp only
    split
    · exact k.afterCid (k.endOnHookCid h)
    · refine k.goOn L v c _ hc rfl (fun hf => ?_) h
      unfold Context.FskLaw at hf
      rw [hk] at hf
      intro x hx
      rw [← Option.some.inj hx]
      exact Fsk.after_accumulator_lt true L.cidMessage 40 (L.fskOf_accumulator_lt hf)
  next r hk =>
    split
    next r' hr =>
      refine k.goOn L v c _ hc rfl (fun hf => ?_) h
      unfold Context.FskLaw at hf ⊢
      rw [hk] at hf
      exact Line.alertNext_fsk hr hf
    next => exact k.endOffHookCid h

theorem stageRender (i : LoadInput) (h : P L) : P (L.stageRender i).1 := by
  unfold Line.stageRender
  split
  next v c hc =>
    have hat := (Line.activeContext_some hc).1
    dsimp only
    split
    · refine k.renderStep _ _ (c := c) (v := v) ?_ (k.same L _ rfl rfl h)
      cases v <;> exact hat
    · exact k.renderStep _ _ hat h
  · exact h

theorem loadCell (i : LoadInput) (h : P L) : P (L.loadCell i).1 := by
  obtain ⟨R, hR, hf, hb, -⟩ := L.loadCell_signals i
  refine k.same R _ hf hb ?_
  obtain ⟨_, _, _, _, _, hc⟩ := L.stageMode.1.stageContent_frame i.slot
  rw [hR, hc]
  exact k.stageRender i (k.same L.stageMode.1 _ rfl rfl (k.stageMode h))

theorem cutBackground (programs : List ProgramRecord) (h : P L) : P (L.cutBackground programs).1 := by
  unfold Line.cutBackground
  split
  · exact k.dropBackground _ h
  · exact h

theorem acknowledge (h : P L) : P { L with foreground := L.foreground.map Context.acknowledge } := by
  cases hf : L.foreground with
  | none => exact k.same L _ hf.symm rfl h
  | some c =>
    refine k.goOn L .foreground c c.acknowledge hf ?_ ?_ h
    · unfold Context.acknowledge
      split <;> rfl
    · unfold Context.acknowledge
      split
      next r hr =>
        intro h
        unfold Context.FskLaw at h
        rw [hr] at h
        exact h
      · exact id

theorem stepDigits (programs : List ProgramRecord) (c : CellClass) (h : P L) : P (L.stepDigits programs c).1 := by
  have hset (M : Line) (m : DigitMachine) (h : P M) : P (M.setDigits m) := k.same M _ rfl rfl h
  unfold Line.stepDigits
  split
  · unfold Line.seekDigit
    dsimp only
    split
    · split
      · unfold Line.qualifyDigit
        split
        · exact hset _ _ (k.acknowledge h)
        · exact k.cutBackground programs (hset _ _ h)
      · exact hset _ _ h
    · exact hset _ _ h
  · unfold Line.holdDigit
    dsimp only
    split
    · exact hset _ _ h
    · split <;> exact hset _ _ h

theorem takeDetector (programs : List ProgramRecord) (h : P L) : P (L.takeDetector programs).1 := by
  refine k.same (L.stepDetector programs L.closedHalf.cls).1 _ rfl rfl ?_
  unfold Line.stepDetector
  split
  · exact h
  · obtain ⟨_, _, hx⟩ := Line.stepCalling_frame (L.stepDigits programs L.closedHalf.cls).1 L.closedHalf.cls
    obtain ⟨_, _, hy⟩ := Line.stepCaptureAnswer_frame ((L.stepDigits programs L.closedHalf.cls).1.stepCalling L.closedHalf.cls).1
      L.closedHalf.cls
    dsimp only
    rw [hy, hx]
    exact k.same (L.stepDigits programs L.closedHalf.cls).1 _ rfl rfl (k.stepDigits programs _ h)

theorem onHookContexts (h : P L) : P L.onHookContexts.1 := by
  have hf : P L.onHookForeground.1 := by
    unfold Line.onHookForeground
    split
    · split
      · exact k.endOffHookCid h
      · exact k.dropForeground _ h
      · exact h
    · exact h
  show P (Line.onHookBackground _).1
  unfold Line.onHookBackground
  split
  · exact k.dropBackground _ hf
  · exact hf

theorem stepHook (programs : List ProgramRecord) (raw : Bool) (h : P L) : P (L.stepHook programs raw).1 := by
  have hset (st : HookState) (n : Nat) : P (L.setHook st n) := k.same L _ rfl rfl h
  unfold Line.stepHook
  split
  case h_2 =>
    split
    · exact k.endRinging _ (hset _ _)
    · exact hset _ _
  case h_3 => exact h
  case h_5 => split <;> exact hset _ _
  case h_7 =>
    unfold Line.endBreak
    dsimp only
    split
    · exact hset _ _
    · split
      · split
        · exact k.cutBackground programs (hset _ _)
        · exact hset _ _
      · exact hset _ _
  case h_8 =>
    split
    · exact k.onHookContexts (hset _ _)
    · exact hset _ _
  all_goals exact hset _ _

theorem stepRing (h : P L) : P L.stepRing.1 := by
  have hset (r : RingState) : P (L.setRing r) := k.same L _ rfl rfl h
  have hplain (begun : Nat) : P (L.endPlainBurst begun).1 := by
    unfold Line.endPlainBurst
    split
    · exact hset _
    · exact k.ringIdle h
  unfold Line.stepRing
  split
  · exact h
  · split
    · unfold Line.endBurst
      split
      · split
        · exact hset _
        · exact hplain _
      · exact hplain _
    · exact hset _
  · split <;> exact hset _
  · split
    · exact k.putForeground _ _ rfl (fun _ h => nomatch h) (hset _)
    · exact hset _
  · exact hset _

theorem startContext (record : Nat) (p : ProgramRecord) (v : Level) (h : P L) : P (L.startContext record p v).1 := by
  cases v with
  | background =>
    refine k.same { L.dropBackground with background := some (Context.ofProgram record p (L.startState .background)) } _ rfl rfl ?_
    exact k.putBackground _ _ rfl trivial (k.dropBackground _ h)
  | foreground => exact k.same (L.putForeground _) _ rfl rfl (k.putForeground _ _ rfl trivial h)

theorem keeps : Line.Keeps P where
  reset := k.empty _ rfl rfl
  withRings L p q h _ _ := by
    unfold Line.withRings
    split <;> exact k.same L _ rfl rfl h
  setUp L h _ _ _ := k.same L _ rfl rfl h
  shutDown L _ := k.empty _ rfl rfl
  clear L h _ := k.same L _ rfl rfl h
  write L w st h := by
    obtain ⟨_, _, _, _, _, hw⟩ := L.write_frame w st
    rw [hw]
    exact k.same L _ rfl rfl h
  move c programs L M hm h := by
    cases hm with
    | startContext record v => exact k.startContext record _ v h
    | stopProgram v =>
      cases v
      · exact k.same L.dropBackground _ rfl rfl (k.dropBackground _ h)
      · exact k.same L.dropForeground _ rfl rfl (k.dropForeground _ h)
    | stopAlert => exact k.same L.endOffHookCid _ rfl rfl (k.endOffHookCid h)
    | startAlert =>
      exact k.same (Line.putForeground _ _) _ rfl rfl (k.putForeground _ _ rfl (fun _ h => nomatch h) (k.same L _ rfl rfl h))
    | stopRinging => exact k.same (L.endRinging .stop).1 _ rfl rfl (k.endRinging _ h)
    | takeDetector => exact k.takeDetector programs h
    | takeHook => exact k.stepHook programs _ (k.same L _ rfl rfl h)
    | takeRing => exact k.stepRing (k.same L _ rfl rfl h)
    | _ => exact k.same L _ rfl rfl h
  stored L h _ := by
    obtain ⟨_, _, _, _, hs⟩ := L.stored_frame
    rw [hs]
    exact k.same L _ rfl rfl h
  load _ i h _ := k.loadCell i h
  boundary L h := by
    obtain ⟨_, _, _, _, _, _, _, _, _, _, _, hb⟩ := L.boundary_frame
    rw [hb]
    exact k.same L _ rfl rfl h
  frame L x pin h := by
    obtain ⟨_, _, _, _, _, _, hf⟩ := L.frame_frame x pin
    rw [hf]
    exact k.same L _ rfl rfl h

end Line.KeepsContexts

/-- The stack of contexts (R112). -/
theorem Line.contextLaw_keeps : Line.KeepsContexts Line.ContextLaw where
  same L M hf hb h := by
    unfold Line.ContextLaw
    rw [hf, hb]
    exact h
  empty L hf hb := by simp [Line.ContextLaw, hf, hb]
  dropForeground L h := by simp [Line.ContextLaw, Line.dropForeground, Context.resume]
  dropBackground L h := ⟨h.1, by simp [Line.dropBackground]⟩
  putForeground L c hc _ _ := by simp [Line.ContextLaw, Line.putForeground, Context.suspend, hc]
  putBackground L c hc _ h := by
    refine ⟨h.1, ?_⟩
    rintro x ⟨⟩
    rw [hc]
    show Line.startState L .background = .suspended ↔ L.foreground.isSome = true
    unfold Line.startState
    dsimp only
    split <;> simp_all
  goOn L v c x hc hx _ h := by
    obtain ⟨hf, hb⟩ := h
    cases v with
    | background =>
      refine ⟨hf, ?_⟩
      rintro y ⟨⟩
      rw [hx]
      exact hb c hc
    | foreground =>
      refine ⟨?_, fun y hy => ?_⟩
      · rintro y ⟨⟩
        rw [hx]
        exact hf c hc
      · have hsome : L.foreground.isSome = true := Option.isSome_iff_exists.mpr ⟨c, hc⟩
        rw [hb y hy, hsome]
        rfl

/-- The bit accumulators (R129, R130). -/
theorem Line.fskLaw_keeps : Line.KeepsContexts Line.FskLaw where
  same L M hf hb h := by
    unfold Line.FskLaw
    rw [hf, hb]
    exact h
  empty L hf hb := by simp [Line.FskLaw, hf, hb]
  dropForeground L h := by
    refine ⟨fun c hc => ?_, fun _ hc => nomatch hc⟩
    obtain ⟨x, hx, rfl⟩ := Option.map_eq_some_iff.mp hc
    exact h.1 x hx
  dropBackground L h := ⟨fun _ hc => (nomatch hc), h.2⟩
  putForeground L c _ hc h := by
    refine ⟨fun y hy => ?_, by rintro y ⟨⟩; exact hc⟩
    obtain ⟨x, hx, rfl⟩ := Option.map_eq_some_iff.mp hy
    exact h.1 x hx
  putBackground L c _ hc h := ⟨by rintro y ⟨⟩; exact hc, h.2⟩
  goOn L v c x hc _ hx h := by
    cases v with
    | background => exact ⟨by rintro y ⟨⟩; exact hx (h.1 c hc), h.2⟩
    | foreground => exact ⟨h.1, by rintro y ⟨⟩; exact hx (h.2 c hc)⟩

end Sys2Proof.Machine
end

section
/-! Ringing and the on-hook caller identification under every step (R134, R136, R152 to R157): a Ring Controller that is not IDLE belongs to a line
qualified ON-HOOK, and an on-hook CID has its context in the foreground exactly while it sends. -/

namespace Sys2Proof.Machine

/-! ### Ring trip (R155) -/

theorem Line.Calls.ringTrip {L M : Line} (hc : Line.Calls L M) (h : L.RingTripLaw) : M.RingTripLaw := by
  obtain ⟨_, _, _, _, _, _, _, _, rfl, -, hi⟩ := hc
  exact fun ho => hi (h ho)

theorem Line.endRinging_ring (L : Line) (c : AbortCause) : (L.endRinging c).1.ring.state = .idle := by
  unfold Line.endRinging
  split <;> rfl

/-- A hook step that qualifies OFF-HOOK ends the ringing (R144, R155); no other qualifies a line that was not. -/
theorem Line.stepHook_ringTrip {L : Line} (programs : List ProgramRecord) (raw : Bool) (h : L.RingTripLaw) :
    (L.stepHook programs raw).1.RingTripLaw := by
  have hoff {M : Line} (hq : L.hook.state.qualified = true) (hr : M.ring = L.ring) : M.RingTripLaw := fun _ => hr ▸ h hq
  have hon {st : HookState} {n : Nat} (hq : st.qualified = false) : (L.setHook st n).RingTripLaw := fun ho =>
    absurd ho (by rw [Line.offHook, Line.setHook, hq]; exact Bool.false_ne_true)
  unfold Line.stepHook
  split
  case h_1 => exact hon rfl
  case h_2 =>
    split
    · exact fun _ => Line.endRinging_ring _ _
    · exact hon rfl
  case h_3 => exact h
  case h_5 =>
    split <;> exact hoff (by simp_all [HookState.qualified]) rfl
  case h_7 hb =>
    have hq : L.hook.state.qualified = true := by rw [hb]; rfl
    unfold Line.endBreak
    dsimp only
    split
    · exact hoff hq rfl
    · split
      · split
        · exact (Line.cutBackground_calls _ programs).ringTrip (hoff hq rfl)
        · exact hoff hq rfl
      · exact hoff hq rfl
  case h_8 =>
    split
    · exact (Line.onHookContexts_calls _).ringTrip (hon rfl)
    · exact hoff (by simp_all [HookState.qualified]) rfl
  all_goals exact hoff (by simp_all [HookState.qualified]) rfl

theorem ringStartChecks_passed {L : Line} {on off : Word16} {cid : Byte} {delay : Word16}
    (h : firstFailing (ringStartChecks L on off cid delay) = none) :
    (cid = 0 ∨ cid = 1) ∧ L.enabled = true ∧ L.offHook = false ∧ L.ring.state = .idle ∧ (cid = 1 → L.foreground = none) := by
  have h := firstFailing_eq_none.mp h
  simp only [ringStartChecks, List.mem_cons, List.not_mem_nil, or_false, forall_eq_or_imp, forall_eq, Bool.or_eq_true, beq_iff_eq,
    Bool.not_eq_true', Option.isNone_iff_eq_none] at h
  obtain ⟨hcid, -, -, -, he, hoff, hidle, -, -, -, hfg⟩ := h
  refine ⟨hcid, he, hoff, hidle, fun h1 => hfg.resolve_left ?_⟩
  rw [h1]
  decide

theorem cidAlertChecks_passed {L : Line} {entry : Byte} (h : firstFailing (cidAlertChecks L entry) = none) :
    L.enabled = true ∧ L.offHook = true ∧ L.mode = .voice ∧ L.foreground = none := by
  have h := firstFailing_eq_none.mp h
  simp only [cidAlertChecks, List.mem_cons, List.not_mem_nil, or_false, forall_eq_or_imp, forall_eq, beq_iff_eq,
    Option.isNone_iff_eq_none] at h
  obtain ⟨-, he, hoff, hmode, -, hfg⟩ := h
  exact ⟨he, hoff, hmode, hfg⟩

theorem Line.ringTripLaw_keeps : Line.Keeps Line.RingTripLaw where
  reset _ := rfl
  withRings L p q h _ _ := by
    unfold Line.withRings
    split <;> exact h
  setUp L h _ _ _ := fun ho => nomatch ho
  shutDown L _ _ := rfl
  clear _ h _ := h
  write L w st h := by
    obtain ⟨_, _, _, _, _, hw⟩ := L.write_frame w st
    rw [hw]
    exact h
  move c programs L M hm h := by
    cases hm with
    | startContext record v => cases v <;> exact h
    | stopProgram v => cases v <;> exact h
    | startRinging on off bursts cid delay hc =>
      obtain ⟨-, -, hoff, -⟩ := ringStartChecks_passed hc
      exact fun ho => absurd (show L.offHook = true from ho) (by rw [hoff]; exact Bool.false_ne_true)
    | stopRinging => exact fun _ => Line.endRinging_ring _ _
    | takeDetector => exact (L.takeDetector_calls programs).ringTrip h
    | takeHook => exact Line.stepHook_ringTrip (L := { L with due := { L.due with hook := false } }) programs _ h
    | takeRing => exact L.takeRing_calls.ringTrip h
    | _ => exact h
  stored L h _ := by
    obtain ⟨_, _, _, _, hs⟩ := L.stored_frame
    rw [hs]
    exact h
  load L i h _ := by
    obtain ⟨_, _, _, _, _, _, _, _, _, _, _, _, _, _, _, _, _, _, _, hl, -, hi⟩ := L.loadCell_frame i
    rw [hl]
    unfold Line.setHalf at hi ⊢
    revert hi
    split <;> exact fun hi ho => hi (h ho)
  boundary L h := by
    unfold Line.boundary
    split
    · split
      · rw [Line.boundaryRing_eq]
        obtain ⟨_, _, hc⟩ := L.closeCapture_frame
        rw [hc]
        dsimp only
        split
        · exact h
        · exact fun ho => congrArg RingState.counted (h ho)
      · exact h
    · exact h
  frame L x pin h := by
    obtain ⟨_, _, _, _, _, _, hf⟩ := L.frame_frame x pin
    rw [hf]
    exact h

/-! ### The on-hook CID and its context (R134, R136) -/

/-- What a ring record says of the foreground: an on-hook CID stands there exactly in CID-SEND, and none stands there while one is scheduled
(the third part of `Line.CidLaw`). -/
def RingRecord.Carries (r : RingRecord) (f : Option Context) : Prop :=
  match r.state with
  | .idle => ∀ c, f = some c → c.isOnHookCid = false
  | .on begun _ => 1 ≤ begun ∧ (∀ c, f = some c → c.isOnHookCid = false) ∧ (begun = 1 → r.cid ≠ none → f = none)
  | .off begun _ => 1 ≤ begun ∧ ∀ c, f = some c → c.isOnHookCid = false
  | .cidDelay begun _ _ => 1 ≤ begun ∧ f = none
  | .cidSend begun _ => 1 ≤ begun ∧ ∃ c, f = some c ∧ c.isOnHookCid = true

/-- Every background is of a program, and a CID in the foreground is EXCLUSIVE (the first two parts of `Line.CidLaw`). -/
def Line.ProperContexts (L : Line) : Prop :=
  (∀ c, L.background = some c → c.isProgram = true) ∧ ∀ c, L.foreground = some c → c.isProgram = true ∨ c.output = .exclusive

theorem Line.cidLaw_iff {L : Line} : L.CidLaw ↔ L.ProperContexts ∧ L.ring.Carries L.foreground :=
  ⟨fun ⟨hb, hf, hr⟩ => ⟨⟨hb, hf⟩, hr⟩, fun ⟨⟨hb, hf⟩, hr⟩ => ⟨hb, hf, hr⟩⟩

theorem Context.isOnHookCid_of_isProgram {c : Context} (h : c.isProgram = true) : c.isOnHookCid = false := by
  unfold Context.isProgram at h
  unfold Context.isOnHookCid
  split at h <;> simp_all

theorem Context.isOnHookCid_of_isAlert {c : Context} (h : c.isAlert = true) : c.isOnHookCid = false := by
  unfold Context.isAlert at h
  unfold Context.isOnHookCid
  split at h <;> simp_all

section Carries

variable {r : RingRecord} {f : Option Context}

/-- A foreground that is no on-hook CID may go. -/
theorem RingRecord.Carries.drop (h : r.Carries f) (hf : ∀ c, f = some c → c.isOnHookCid = false) : r.Carries none := by
  unfold RingRecord.Carries at *
  split at h
  · exact fun _ h => nomatch h
  · exact ⟨h.1, fun _ h => (nomatch h), fun _ _ => rfl⟩
  · exact ⟨h.1, fun _ h => nomatch h⟩
  · exact ⟨h.1, rfl⟩
  · obtain ⟨-, c, hc, hk⟩ := h
    rw [hf c hc] at hk
    cases hk

/-- A foreground may become another of which it is as true that it is an on-hook CID. -/
theorem RingRecord.Carries.replace {c x : Context} (h : r.Carries (some c)) (hx : x.isOnHookCid = c.isOnHookCid) : r.Carries (some x) := by
  unfold RingRecord.Carries at *
  split at h
  · rintro y ⟨⟩
    rw [hx]
    exact h c rfl
  · obtain ⟨h1, h2, h3⟩ := h
    refine ⟨h1, ?_, fun hb hc => nomatch h3 hb hc⟩
    rintro y ⟨⟩
    rw [hx]
    exact h2 c rfl
  · refine ⟨h.1, ?_⟩
    rintro y ⟨⟩
    rw [hx]
    exact h.2 c rfl
  · exact nomatch h.2
  · obtain ⟨h1, y, ⟨⟩, hk⟩ := h
    exact ⟨h1, x, rfl, hx.trans hk⟩

/-- A ring record that holds no on-hook CID, with no foreground, may take one that is none. -/
theorem RingRecord.Carries.put {x : Context} (h : r.Carries none) (hr : r.holdsCid = false) (hx : x.isOnHookCid = false) :
    r.Carries (some x) := by
  have hy : ∀ y, some x = some y → y.isOnHookCid = false := by
    rintro y ⟨⟩
    exact hx
  unfold RingRecord.holdsCid at hr
  unfold RingRecord.Carries at *
  split at h
  · exact hy
  next begun _ hs =>
    refine ⟨h.1, hy, fun hb hc => ?_⟩
    rw [hs] at hr
    simp only [Bool.and_eq_false_iff, beq_eq_false_iff_ne] at hr
    obtain hr | hr := hr
    · exact absurd hb hr
    · exact absurd (Option.isSome_eq_false_iff.mp hr |> Option.isNone_iff_eq_none.mp) hc
  · exact ⟨h.1, hy⟩
  next hs => rw [hs] at hr; cases hr
  next hs => rw [hs] at hr; cases hr

theorem RingRecord.carries_of_idle (hr : r.state = .idle) : r.Carries f ↔ ∀ c, f = some c → c.isOnHookCid = false := by
  unfold RingRecord.Carries
  rw [hr]

/-- The CID of a ringing that has no on-hook CID context may be given up. -/
theorem RingRecord.Carries.noOnHook (h : r.Carries f) (hs : ∀ begun remaining, r.state ≠ .cidSend begun remaining) :
    ∀ c, f = some c → c.isOnHookCid = false := by
  unfold RingRecord.Carries at h
  split at h
  · exact h
  · exact h.2.1
  · exact h.2
  · rw [h.2]
    exact fun _ h => nomatch h
  next begun remaining hr => exact absurd hr (hs begun remaining)

end Carries

section Cid

variable {L : Line}

theorem Line.ProperContexts.dropForeground (h : L.ProperContexts) : L.dropForeground.ProperContexts := by
  refine ⟨fun c hc => ?_, fun _ hc => nomatch hc⟩
  obtain ⟨x, hx, rfl⟩ := Option.map_eq_some_iff.mp hc
  exact h.1 x hx

theorem Line.ProperContexts.putForeground (h : L.ProperContexts) {c : Context} (hc : c.isProgram = true ∨ c.output = .exclusive) :
    (L.putForeground c).ProperContexts := by
  refine ⟨fun y hy => ?_, ?_⟩
  · obtain ⟨x, hx, rfl⟩ := Option.map_eq_some_iff.mp hy
    exact h.1 x hx
  · rintro y ⟨⟩
    exact hc

theorem Line.CidLaw.of_same {M : Line} (hf : M.foreground = L.foreground) (hb : M.background = L.background) (hr : M.ring = L.ring)
    (h : L.CidLaw) : M.CidLaw := by
  unfold Line.CidLaw
  rw [hf, hb, hr]
  exact h

theorem Line.CidLaw.dropBackground (h : L.CidLaw) : L.dropBackground.CidLaw := ⟨fun _ hc => (nomatch hc), h.2⟩

/-- A foreground that is no on-hook CID is removed. -/
theorem Line.CidLaw.dropForeground (h : L.CidLaw) (hf : ∀ c, L.foreground = some c → c.isOnHookCid = false) :
    L.dropForeground.CidLaw := by
  obtain ⟨hp, hr⟩ := Line.cidLaw_iff.mp h
  exact Line.cidLaw_iff.mpr ⟨hp.dropForeground, hr.drop hf⟩

theorem Line.endOnHookCid_noOnHook (L : Line) : ∀ c, L.endOnHookCid.foreground = some c → c.isOnHookCid = false := by
  unfold Line.endOnHookCid
  dsimp only
  split
  · exact fun _ h => nomatch h
  next hn =>
    intro c hc
    have hc : L.foreground = some c := hc
    rw [hc] at hn
    exact Bool.eq_false_iff.mpr hn

theorem Line.endOnHookCid_ring (L : Line) : L.endOnHookCid.ring = { L.ring with cid := none } := by
  unfold Line.endOnHookCid
  dsimp only
  split <;> rfl

theorem Line.ProperContexts.endOnHookCid (h : L.ProperContexts) : L.endOnHookCid.ProperContexts := by
  unfold Line.endOnHookCid
  dsimp only
  split
  · exact Line.ProperContexts.dropForeground (L := { L with cid := _, ring := _ }) h
  · exact h

/-- The end of an on-hook CID leaves the law once the ringing has gone on without it (R135, R136). -/
theorem Line.CidLaw.afterCid (h : L.CidLaw) : L.endOnHookCid.afterCid.1.CidLaw := by
  obtain ⟨hp, hr⟩ := Line.cidLaw_iff.mp h
  have hp := hp.endOnHookCid
  have hno := L.endOnHookCid_noOnHook
  have hring := L.endOnHookCid_ring
  generalize L.endOnHookCid = M at *
  refine Line.cidLaw_iff.mpr ?_
  unfold RingRecord.Carries at hr
  unfold Line.afterCid
  split
  next begun remaining delay hs =>
    rw [show L.ring.state = .cidDelay begun remaining delay by rw [← hs, hring]] at hr
    split
    · exact ⟨hp, hno⟩
    · exact ⟨hp, hr.1, hno⟩
  next begun remaining hs =>
    rw [show L.ring.state = .cidSend begun remaining by rw [← hs, hring]] at hr
    split
    · exact ⟨hp, hno⟩
    · exact ⟨hp, hr.1, hno⟩
  next hd hs =>
    refine ⟨hp, ?_⟩
    rw [hring]
    unfold RingRecord.Carries
    dsimp only
    split at hr <;> simp_all

theorem Line.CidLaw.ringIdle (hp : L.ProperContexts) (hno : ∀ c, L.foreground = some c → c.isOnHookCid = false) : L.ringIdle.CidLaw :=
  Line.cidLaw_iff.mpr ⟨hp, hno⟩

theorem Line.CidLaw.endRinging (h : L.CidLaw) (c : AbortCause) : (L.endRinging c).1.CidLaw := by
  obtain ⟨hp, hr⟩ := Line.cidLaw_iff.mp h
  unfold Line.endRinging
  split
  · exact .ringIdle hp.endOnHookCid L.endOnHookCid_noOnHook
  next hn =>
    refine .ringIdle hp (hr.noOnHook fun begun remaining hs => hn ?_)
    unfold RingRecord.holdsCid
    rw [hs]

theorem Line.CidLaw.noOnHook (h : L.CidLaw) (hn : L.ring.holdsCid = false) : ∀ c, L.foreground = some c → c.isOnHookCid = false := by
  refine (Line.cidLaw_iff.mp h).2.noOnHook fun begun remaining hs => ?_
  unfold RingRecord.holdsCid at hn
  rw [hs] at hn
  cases hn

theorem Line.CidLaw.endOffHookCid (h : L.CidLaw) (hf : ∀ c, L.foreground = some c → c.isOnHookCid = false) : L.endOffHookCid.CidLaw :=
  Line.CidLaw.dropForeground (L := { L with cid := _ }) h hf

theorem Line.CidLaw.stageMode (h : L.CidLaw) : L.stageMode.1.CidLaw := by
  have hf : L.modeForeground.1.CidLaw := by
    unfold Line.modeForeground
    split
    · exact h.afterCid
    next hn =>
      have hno := h.noOnHook (Bool.eq_false_iff.mpr hn)
      split
      · split
        · exact h.endOffHookCid hno
        · exact h.dropForeground hno
        · exact h.dropForeground hno
      · exact h
  have hb : L.modeForeground.1.modeBackground.1.CidLaw := by
    unfold Line.modeBackground
    split
    · exact hf.dropBackground
    · exact hf
  unfold Line.stageMode
  split
  · exact Line.CidLaw.of_same (L := L.modeForeground.1.modeBackground.1) rfl rfl rfl hb
  · exact h

/-- A context goes on, of the kind it was. -/
theorem Line.CidLaw.setContext (h : L.CidLaw) {v : Level} {c x : Context} (hc : L.contextAt v = some c)
    (hp : x.isProgram = c.isProgram) (ho : x.output = c.output) (hk : x.isOnHookCid = c.isOnHookCid) : (L.setContext v x).CidLaw := by
  obtain ⟨⟨hb, hf⟩, hr⟩ := Line.cidLaw_iff.mp h
  refine Line.cidLaw_iff.mpr ?_
  cases v with
  | background =>
    refine ⟨⟨?_, hf⟩, hr⟩
    rintro y ⟨⟩
    rw [hp]
    exact hb c hc
  | foreground =>
    have hc : L.foreground = some c := hc
    rw [hc] at hr
    refine ⟨⟨hb, ?_⟩, hr.replace hk⟩
    rintro y ⟨⟩
    rw [hp, ho]
    exact hf c hc

/-- A context that is of no program stands in the foreground. -/
theorem Line.CidLaw.foreground_of_cid (h : L.CidLaw) {v : Level} {c : Context} (hc : L.contextAt v = some c)
    (hp : c.isProgram = false) : v = .foreground := by
  cases v with
  | background => exact absurd ((Line.cidLaw_iff.mp h).1.1 c hc) (by rw [hp]; exact Bool.false_ne_true)
  | foreground => rfl

theorem Line.CidLaw.renderStep (h : L.CidLaw) (tones : List ToneEntry) (programs : List ProgramRecord) {v : Level} {c : Context}
    (hc : L.contextAt v = some c) : (L.renderStep tones programs v c).1.CidLaw := by
  unfold Line.renderStep
  split
  next hk =>
    split
    · exact h.setContext hc (by simp [Context.isProgram, hk]) rfl (by simp [Context.isOnHookCid, hk])
    · cases v with
      | background => exact h.dropBackground
      | foreground =>
        refine h.dropForeground fun y hy => ?_
        obtain rfl : c = y := Option.some.inj (Eq.trans hc.symm hy)
        simp [Context.isOnHookCid, hk]
  next hk =>
    dsimp only
    split
    · exact h.afterCid
    · exact h.setContext hc (by simp [Context.isProgram, hk]) rfl (by simp [Context.isOnHookCid, hk])
  next hk =>
    split
    · exact h.setContext hc (by simp [Context.isProgram, hk]) rfl (by simp [Context.isOnHookCid, hk])
    · obtain rfl := h.foreground_of_cid hc (by simp [Context.isProgram, hk])
      refine h.endOffHookCid fun y hy => ?_
      obtain rfl : c = y := Option.some.inj (Eq.trans hc.symm hy)
      simp [Context.isOnHookCid, hk]

theorem Line.CidLaw.stageRender (h : L.CidLaw) (i : LoadInput) : (L.stageRender i).1.CidLaw := by
  unfold Line.stageRender
  split
  next v c hc =>
    have hat := (Line.activeContext_some hc).1
    dsimp only
    split
    · refine Line.CidLaw.renderStep ?_ _ _ ?_
      · exact h
      · cases v <;> exact hat
    · exact h.renderStep _ _ hat
  · exact h

theorem Line.CidLaw.loadCell (h : L.CidLaw) (i : LoadInput) : (L.loadCell i).1.CidLaw := by
  obtain ⟨R, hR, hf, hb, hr, -⟩ := L.loadCell_signals i
  refine Line.CidLaw.of_same (L := R) hf hb hr ?_
  obtain ⟨_, _, _, _, _, hc⟩ := L.stageMode.1.stageContent_frame i.slot
  rw [hR, hc]
  refine Line.CidLaw.stageRender ?_ i
  exact h.stageMode

theorem Line.CidLaw.cutBackground (h : L.CidLaw) (programs : List ProgramRecord) : (L.cutBackground programs).1.CidLaw := by
  unfold Line.cutBackground
  split
  · exact h.dropBackground
  · exact h

theorem Context.acknowledge_same (c : Context) :
    c.acknowledge.isProgram = c.isProgram ∧ c.acknowledge.output = c.output ∧ c.acknowledge.isOnHookCid = c.isOnHookCid := by
  unfold Context.acknowledge
  split
  next hk => simp [Context.isProgram, Context.isOnHookCid, hk]
  · exact ⟨rfl, rfl, rfl⟩

theorem Line.CidLaw.stepDigits (h : L.CidLaw) (programs : List ProgramRecord) (c : CellClass) : (L.stepDigits programs c).1.CidLaw := by
  have hset {M : Line} (m : DigitMachine) (h : M.CidLaw) : (M.setDigits m).CidLaw := h
  unfold Line.stepDigits
  split
  · unfold Line.seekDigit
    dsimp only
    split
    · split
      · unfold Line.qualifyDigit
        split
        · refine hset _ ?_
          cases hf : L.foreground with
          | none => exact h.of_same hf.symm rfl rfl
          | some x =>
            obtain ⟨hp, ho, hk⟩ := x.acknowledge_same
            exact Line.CidLaw.setContext (v := .foreground) h hf hp ho hk
        · exact (hset _ h).cutBackground programs
      · exact hset _ h
    · exact hset _ h
  · unfold Line.holdDigit
    dsimp only
    split
    · exact hset _ h
    · split <;> exact hset _ h

theorem Line.CidLaw.takeDetector (h : L.CidLaw) (programs : List ProgramRecord) : (L.takeDetector programs).1.CidLaw := by
  refine Line.CidLaw.of_same (L := (L.stepDetector programs L.closedHalf.cls).1) rfl rfl rfl ?_
  unfold Line.stepDetector
  split
  · exact h
  · obtain ⟨_, _, hx⟩ := Line.stepCalling_frame (L.stepDigits programs L.closedHalf.cls).1 L.closedHalf.cls
    obtain ⟨_, _, hy⟩ := Line.stepCaptureAnswer_frame ((L.stepDigits programs L.closedHalf.cls).1.stepCalling L.closedHalf.cls).1
      L.closedHalf.cls
    dsimp only
    rw [hy, hx]
    exact h.stepDigits programs _

theorem Line.CidLaw.onHookContexts (h : L.CidLaw) : L.onHookContexts.1.CidLaw := by
  have hf : L.onHookForeground.1.CidLaw := by
    unfold Line.onHookForeground
    split
    next c hc =>
      split
      next hk =>
        refine h.endOffHookCid fun y hy => ?_
        obtain rfl : c = y := Option.some.inj (hc.symm.trans hy)
        simp [Context.isOnHookCid, hk]
      next hk =>
        refine h.dropForeground fun y hy => ?_
        obtain rfl : c = y := Option.some.inj (hc.symm.trans hy)
        simp [Context.isOnHookCid, hk]
      · exact h
    · exact h
  show Line.CidLaw (Line.onHookBackground _).1
  unfold Line.onHookBackground
  split
  · exact hf.dropBackground
  · exact hf

theorem Line.CidLaw.stepHook (h : L.CidLaw) (programs : List ProgramRecord) (raw : Bool) : (L.stepHook programs raw).1.CidLaw := by
  have hset (st : HookState) (n : Nat) : (L.setHook st n).CidLaw := h
  unfold Line.stepHook
  split
  case h_2 =>
    split
    · exact (hset _ _).endRinging _
    · exact hset _ _
  case h_3 => exact h
  case h_5 => split <;> exact hset _ _
  case h_7 =>
    unfold Line.endBreak
    dsimp only
    split
    · exact hset _ _
    · split
      · split
        · exact (hset _ _).cutBackground programs
        · exact hset _ _
      · exact hset _ _
  case h_8 =>
    split
    · exact (hset _ _).onHookContexts
    · exact hset _ _
  all_goals exact hset _ _

theorem RingRecord.Carries.counted {r : RingRecord} {f : Option Context} (h : r.Carries f) :
    RingRecord.Carries { r with state := r.state.counted } f := by
  unfold RingRecord.Carries at *
  split at h <;> simp_all [RingState.counted]

theorem Line.CidLaw.endBurst (h : L.CidLaw) {begun remaining : Nat} (hs : L.ring.state = .on begun remaining) :
    (L.endBurst begun).1.CidLaw := by
  obtain ⟨hp, hr⟩ := Line.cidLaw_iff.mp h
  unfold RingRecord.Carries at hr
  rw [hs] at hr
  obtain ⟨hb, hno, hfirst⟩ := hr
  have hplain : (L.endPlainBurst begun).1.CidLaw := by
    unfold Line.endPlainBurst
    split
    · exact Line.cidLaw_iff.mpr ⟨hp, hb, hno⟩
    · exact .ringIdle hp hno
  unfold Line.endBurst
  split
  next hd =>
    split
    next h1 => exact Line.cidLaw_iff.mpr ⟨hp, hb, hfirst h1 (by rw [hd]; exact Option.some_ne_none _)⟩
    · exact hplain
  · exact hplain

theorem Line.CidLaw.stepRing (h : L.CidLaw) : L.stepRing.1.CidLaw := by
  obtain ⟨hp, hr⟩ := Line.cidLaw_iff.mp h
  cases ht : L.ring.state.turns with
  | false =>
    rw [L.stepRing_counts ht]
    exact Line.cidLaw_iff.mpr ⟨hp, hr.counted⟩
  | true =>
    unfold RingRecord.Carries at hr
    unfold Line.stepRing
    split
    · exact h
    next hs =>
      split
      · exact h.endBurst hs
      next hn => simp [RingState.turns, RingState.endsBurst, RingState.beginsBurst, RingState.beginsCid, hs, hn] at ht
    next begun remaining hs =>
      rw [hs] at hr
      split
      · refine Line.cidLaw_iff.mpr ⟨hp, ?_, hr.2, fun hb => ?_⟩
        · unfold countUp
          split <;> omega
        · unfold countUp at hb
          have := hr.1
          split at hb <;> omega
      next hn => simp [RingState.turns, RingState.endsBurst, RingState.beginsBurst, RingState.beginsCid, hs, hn] at ht
    next hs =>
      rw [hs] at hr
      split
      · exact Line.cidLaw_iff.mpr ⟨Line.ProperContexts.putForeground (L := L.setRing _) hp (.inr rfl), hr.1, _, rfl, rfl⟩
      next hn => simp [RingState.turns, RingState.endsBurst, RingState.beginsBurst, RingState.beginsCid, hs, hn] at ht
    next hs => simp [RingState.turns, RingState.endsBurst, RingState.beginsBurst, RingState.beginsCid, hs] at ht

theorem Line.CidLaw.startContext (h : L.CidLaw) (record : Nat) (p : ProgramRecord) (v : Level)
    (hf : v = .background ∨ L.foreground = none ∧ L.ring.holdsCid = false) : (L.startContext record p v).1.CidLaw := by
  obtain ⟨hp, hr⟩ := Line.cidLaw_iff.mp h
  cases v with
  | background =>
    refine Line.cidLaw_iff.mpr ⟨⟨?_, hp.2⟩, hr⟩
    rintro y ⟨⟩
    rfl
  | foreground =>
    obtain hv | ⟨hnone, hcid⟩ := hf
    · cases hv
    · rw [hnone] at hr
      refine Line.cidLaw_iff.mpr ⟨?_, hr.put hcid rfl⟩
      exact hp.putForeground (c := Context.ofProgram record p (L.startState .foreground)) (.inl rfl)

theorem Line.CidLaw.stopProgram (h : L.CidLaw) {v : Level} {x : Context} (hx : L.contextAt v = some x) (hk : x.isProgram = true) :
    (L.stopProgram v).1.CidLaw := by
  cases v with
  | background => exact h.dropBackground.of_same rfl rfl rfl
  | foreground =>
    refine Line.CidLaw.of_same (L := L.dropForeground) rfl rfl rfl (h.dropForeground fun y hy => ?_)
    obtain rfl : x = y := Option.some.inj (Eq.trans hx.symm hy)
    exact Context.isOnHookCid_of_isProgram hk

theorem Line.CidLaw.stopAlert (h : L.CidLaw) {v : Level} {x : Context} (hx : L.contextAt v = some x) (hk : x.isAlert = true) :
    L.stopAlert.1.CidLaw := by
  have hp : x.isProgram = false := by
    unfold Context.isAlert at hk
    unfold Context.isProgram
    split at hk <;> simp_all
  obtain rfl := h.foreground_of_cid hx hp
  refine Line.CidLaw.of_same (L := L.endOffHookCid) rfl rfl rfl (h.endOffHookCid fun y hy => ?_)
  obtain rfl : x = y := Option.some.inj (Eq.trans hx.symm hy)
  exact Context.isOnHookCid_of_isAlert hk

/-- A CID ALERT is taken on an OFF-HOOK line, which does not ring (R137, R155). -/
theorem Line.CidLaw.startAlert (h : L.CidLaw) (ht : L.RingTripLaw) {entry : Byte} (hc : firstFailing (cidAlertChecks L entry) = none) :
    (L.startAlert entry.toNat).CidLaw := by
  obtain ⟨-, hoff, -, -⟩ := cidAlertChecks_passed hc
  obtain ⟨hp, -⟩ := Line.cidLaw_iff.mp h
  refine Line.cidLaw_iff.mpr ⟨?_, (RingRecord.carries_of_idle (ht hoff)).mpr ?_⟩
  · exact Line.ProperContexts.putForeground (L := { L with cid := _ }) hp (.inr rfl)
  · rintro y ⟨⟩
    rfl

theorem Line.CidLaw.startRinging (h : L.CidLaw) {on off : Word16} {bursts cid : Byte} {delay : Word16}
    (hc : firstFailing (ringStartChecks L on off cid delay) = none) : (L.startRinging on off bursts cid delay).CidLaw := by
  obtain ⟨hcid, -, -, hidle, hfg⟩ := ringStartChecks_passed hc
  obtain ⟨hp, hr⟩ := Line.cidLaw_iff.mp h
  refine Line.cidLaw_iff.mpr ⟨hp, Nat.le_refl 1, (RingRecord.carries_of_idle hidle).mp hr, fun _ hn => ?_⟩
  by_cases h1 : cid = 1
  · exact hfg h1
  · exact absurd (if_neg h1) hn

end Cid

/-- Ring trip and the law of the on-hook CID are kept together: a CID ALERT needs the first (R112, R134 to R137, R155). -/
theorem Line.cidLaw_keeps : Line.Keeps fun L => L.RingTripLaw ∧ L.CidLaw where
  reset := ⟨Line.ringTripLaw_keeps.reset, by simp [Line.CidLaw, Line.reset, RingRecord.reset]⟩
  withRings L p q h he hr := by
    refine ⟨Line.ringTripLaw_keeps.withRings L p q h.1 he hr, ?_⟩
    unfold Line.withRings
    split <;> exact h.2
  setUp L h he hp hq := ⟨Line.ringTripLaw_keeps.setUp L h.1 he hp hq, h.2⟩
  shutDown L h := ⟨Line.ringTripLaw_keeps.shutDown L h.1, by simp [Line.CidLaw, Line.shutDown, Line.reset, RingRecord.reset]⟩
  clear _ h _ := h
  write L w st h := by
    refine ⟨Line.ringTripLaw_keeps.write L w st h.1, ?_⟩
    obtain ⟨_, _, _, _, _, hw⟩ := L.write_frame w st
    rw [hw]
    exact h.2
  move c programs L M hm h := by
    refine ⟨Line.ringTripLaw_keeps.move c programs L M hm h.1, ?_⟩
    obtain ⟨ht, h⟩ := h
    cases hm with
    | startContext record v he hm hf => exact h.startContext record _ v hf
    | stopProgram v x hx hk => exact h.stopProgram hx hk
    | stopAlert v x hx hk => exact h.stopAlert hx hk
    | startAlert entry hc => exact h.startAlert ht hc
    | startRinging on off bursts cid delay hc => exact h.startRinging hc
    | stopRinging => exact Line.CidLaw.of_same (L := (L.endRinging .stop).1) rfl rfl rfl (h.endRinging _)
    | takeDetector => exact h.takeDetector programs
    | takeHook => exact Line.CidLaw.stepHook (L := { L with due := { L.due with hook := false } }) h programs _
    | takeRing => exact Line.CidLaw.stepRing (L := { L with due := { L.due with ring := false } }) h
    | _ => exact h
  stored L h hd := by
    refine ⟨Line.ringTripLaw_keeps.stored L h.1 hd, ?_⟩
    obtain ⟨_, _, _, _, hs⟩ := L.stored_frame
    rw [hs]
    exact h.2
  load L i h hd := ⟨Line.ringTripLaw_keeps.load L i h.1 hd, h.2.loadCell i⟩
  boundary L h := by
    refine ⟨Line.ringTripLaw_keeps.boundary L h.1, ?_⟩
    unfold Line.boundary
    split
    · split
      · rw [Line.boundaryRing_eq]
        obtain ⟨_, _, hc⟩ := L.closeCapture_frame
        rw [hc]
        dsimp only
        split
        · exact h.2
        · obtain ⟨hp, hr⟩ := Line.cidLaw_iff.mp h.2
          exact Line.cidLaw_iff.mpr ⟨hp, hr.counted⟩
      · exact h.2
    · exact h.2
  frame L x pin h := by
    refine ⟨Line.ringTripLaw_keeps.frame L x pin h.1, ?_⟩
    obtain ⟨_, _, _, _, _, _, hf⟩ := L.frame_frame x pin
    rw [hf]
    exact h.2

end Sys2Proof.Machine
end

section
/-! A DISABLED line under every step (R6, R13, R14), and the laws of a line's record that are settled line by line. -/

namespace Sys2Proof.Machine

theorem Line.Move.enabled {c : Instr} {programs : List ProgramRecord} {L M : Line} (h : Line.Move c programs L M) :
    M.enabled = L.enabled := by
  obtain ⟨_, _, _, _, _, _, _, _, _, _, _, _, _, _, rfl⟩ | ⟨v, rfl⟩ | ⟨slip, rfl⟩ | ⟨r, -, rfl⟩ | rfl | ⟨-, rfl⟩ := h.served_or <;> rfl

section Disabled

variable {L : Line}

/-- A DISABLED line has no context at either level (R13). -/
theorem Line.DisabledLaw.contextAt (h : L.DisabledLaw) (he : L.enabled = false) (v : Level) : L.contextAt v = none := by
  rw [← h he]
  cases v <;> rfl

theorem Line.DisabledLaw.ring_idle (h : L.DisabledLaw) (he : L.enabled = false) : L.ring.state = .idle := by
  rw [← h he]
  rfl

/-- What a disable keeps may change on a DISABLED line (R14). -/
theorem Line.DisabledLaw.reconfigured (h : L.DisabledLaw) (he : L.enabled = false) (p q : Option RingEntry) (config : PlayoutConfig)
    (threshold : Nat) (autoFax : Bool) (attenuation : Nat) (pin : Bool) :
    Line.DisabledLaw { L with
      playRing := p, capRing := q, config := config, capThreshold := threshold, autoFax := autoFax, cidAttenuation := attenuation
      hookPin := pin } := by
  intro _
  calc _ = { L.shutDown with
        playRing := p, capRing := q, config := config, capThreshold := threshold, autoFax := autoFax, cidAttenuation := attenuation
        hookPin := pin } := rfl
    _ = _ := by rw [h he]

theorem Line.disabledLaw_of_enabled (h : L.enabled = true) : L.DisabledLaw := fun he => absurd (h.symm.trans he) Bool.noConfusion

end Disabled

/-- What a DISABLED line's own moves are: SET SUPERVISION, SET PLAYOUT and READ AND CLEAR STATISTICS, and no other (R13, R14). -/
theorem Line.Move.of_disabled {c : Instr} {programs : List ProgramRecord} {L M : Line} (h : Line.Move c programs L M)
    (hl : L.DisabledLaw) (he : L.enabled = false) :
    (∃ control attenuation, M = L.supervise control attenuation) ∨ (∃ v, M = L.setPlayout v) ∨ M = { L with stats := .zero } := by
  have hoff {p : Prop} (h : L.enabled = true) : p := absurd (h.symm.trans he) Bool.noConfusion
  have hnone {p : Prop} {v : Level} {x : Context} (h : L.contextAt v = some x) : p :=
    nomatch (hl.contextAt he v).symm.trans h
  have hdue {p : Prop} {a b : Bool} (h : (L.enabled && a && b) = true) : p := by
    rw [he] at h
    cases h
  cases h with
  | supervise control attenuation => exact .inl ⟨_, _, rfl⟩
  | setPlayout v => exact .inr (.inl ⟨v, rfl⟩)
  | clearStats => exact .inr (.inr rfl)
  | requestMode m h => exact hoff h
  | startContext record v h => exact hoff h
  | stopProgram v x hx => exact hnone hx
  | stopAlert v x hx => exact hnone hx
  | loadMessage m h => exact hoff h
  | startAlert entry h => exact hoff (cidAlertChecks_passed h).1
  | startRinging on off bursts cid delay h => exact hoff (ringStartChecks_passed h).2.1
  | stopRinging h => exact absurd (hl.ring_idle he) h
  | addSlip slip h => exact hoff h
  | readOut r h => exact hoff h
  | start h => exact hdue h
  | takeDetector h => exact hdue h
  | takeHook h => exact hdue h
  | takeRing h => exact hdue h

theorem Line.disabledLaw_keeps : Line.Keeps Line.DisabledLaw where
  reset _ := rfl
  withRings L p q h he _ := by
    unfold Line.withRings
    split <;> exact h.reconfigured he _ _ L.config L.capThreshold L.autoFax L.cidAttenuation L.hookPin
  setUp L _ _ _ _ := Line.disabledLaw_of_enabled rfl
  shutDown L _ _ := rfl
  clear L _ he := Line.disabledLaw_of_enabled he
  write L w st h := by
    cases he : L.enabled with
    | true =>
      obtain ⟨_, _, _, _, _, hw⟩ := L.write_frame w st
      rw [hw]
      exact Line.disabledLaw_of_enabled he
    | false =>
      unfold Line.write
      rw [he]
      exact h
  move c programs L M hm h := by
    cases he : L.enabled with
    | true => exact Line.disabledLaw_of_enabled (hm.enabled.trans he)
    | false =>
      obtain ⟨control, attenuation, rfl⟩ | ⟨v, rfl⟩ | rfl := hm.of_disabled h he
      · exact h.reconfigured he _ _ L.config L.capThreshold _ _ L.hookPin
      · exact h.reconfigured he _ _ _ _ L.autoFax L.cidAttenuation L.hookPin
      · intro _
        calc _ = { L.shutDown with stats := .zero } := rfl
          _ = _ := by rw [h he]
  stored L h hd := by
    have he : L.enabled = true := by
      simp only [Line.captureDue, Bool.and_eq_true] at hd
      exact hd.1.1
    obtain ⟨_, _, _, _, hs⟩ := L.stored_frame
    rw [hs]
    exact Line.disabledLaw_of_enabled he
  load L i h hd := by
    simp only [Line.loadDue, Bool.and_eq_true] at hd
    exact Line.disabledLaw_of_enabled ((L.loadCell_timeline i).enabled.trans hd.1.1)
  boundary L h := by
    cases he : L.enabled with
    | true =>
      obtain ⟨_, _, _, _, _, _, _, _, _, _, _, hb⟩ := L.boundary_frame
      rw [hb]
      exact Line.disabledLaw_of_enabled he
    | false =>
      unfold Line.boundary
      rw [he]
      exact h
  frame L x pin h := by
    cases he : L.enabled with
    | true =>
      obtain ⟨_, _, _, _, _, _, hf⟩ := L.frame_frame x pin
      rw [hf]
      exact Line.disabledLaw_of_enabled he
    | false =>
      unfold Line.frame
      rw [if_neg (by simp [he])]
      exact h.reconfigured he _ _ L.config L.capThreshold L.autoFax L.cidAttenuation pin

/-- Settles O53: a law of a line's record, move by move. -/
theorem disabledLineHoldsNothing : Obligations.DisabledLineHoldsNothing := Line.disabledLaw_keeps.kept

/-- Settles O55. -/
theorem neverRingsOffHook : Obligations.NeverRingsOffHook := by
  refine ⟨Line.ringTripLaw_keeps.kept, fun L h ho => ?_⟩
  rw [Line.ringen, h ho]
  rfl

/-- Settles O54: the context stack is kept alone, the on-hook CID with ring trip. -/
theorem contextStackKept : Obligations.ContextStackKept :=
  ⟨Line.contextLaw_keeps.keeps.kept, Kept.and_eachLine Line.cidLaw_keeps⟩

end Sys2Proof.Machine
end

section
/-! The Event Queue, the deposit buffer, the tone table and the program table under every step (R47, R105, R108, R179), and the ranges that every step
keeps. -/

namespace Sys2Proof.Machine

/-! ### The Event Queue (R179) -/

/-- In a lawful queue without an OVERFLOW record in the last place there is none. -/
theorem QueueLaw.none_overflowed {q : List EventRecord} (h : QueueLaw q) (ho : overflowed q = false) : ∀ r ∈ q, r.isOverflow = false := by
  obtain rfl | ⟨q, x, rfl⟩ := q.eq_nil_or_concat'
  · exact fun _ h => nomatch h
  · intro r hr
    rw [overflowed_append] at ho
    have hq := h.1
    rw [List.dropLast_concat] at hq
    obtain hr | hr := List.mem_append.mp hr
    · exact hq r hr
    · rw [List.mem_singleton.mp hr]
      exact ho

theorem EventRecord.isOverflow_discardMore {r : EventRecord} (h : r.isOverflow = true) : r.discardMore.isOverflow = true := by
  unfold EventRecord.isOverflow at h
  split at h
  next n he => simp [EventRecord.discardMore, EventRecord.isOverflow, he]
  · cases h

theorem QueueLaw.enqueue {q : List EventRecord} (h : QueueLaw q) (r : EventRecord) : QueueLaw (enqueue q r) := by
  cases ho : overflowed q with
  | true =>
    rw [enqueue_overflowed ho]
    obtain rfl | ⟨q, x, rfl⟩ := q.eq_nil_or_concat'
    · cases ho
    · rw [overflowed_append] at ho
      obtain ⟨hq, hlen, -⟩ := h
      rw [List.dropLast_concat] at hq ⊢
      rw [List.getLast?_concat, Option.map_some, Option.toList_some]
      refine ⟨by rw [List.dropLast_concat]; exact hq, by simpa using hlen, fun _ => ?_⟩
      rw [overflowed_append]
      exact EventRecord.isOverflow_discardMore ho
  | false =>
    have hnone := h.none_overflowed ho
    obtain ⟨-, hlen, hfull⟩ := h
    by_cases hl : q.length < 63
    · rw [enqueue_room ho hl]
      refine ⟨by rw [List.dropLast_concat]; exact hnone, by simp; omega, fun h => ?_⟩
      rw [List.length_append, List.length_singleton] at h
      omega
    · rw [enqueue_full ho (by omega)]
      have hne : q.length ≠ 64 := fun h => absurd (ho.symm.trans (hfull h)) Bool.noConfusion
      refine ⟨by rw [List.dropLast_concat]; exact hnone, by simp; omega, fun _ => ?_⟩
      rw [overflowed_append]
      rfl

theorem QueueLaw.drop {q : List EventRecord} (h : QueueLaw q) (n : Nat) : QueueLaw (q.drop n) := by
  obtain ⟨hq, hlen, hfull⟩ := h
  refine ⟨fun r hr => hq r ?_, by rw [List.length_drop]; omega, fun h => ?_⟩
  · rw [List.dropLast_drop_eq_drop_dropLast] at hr
    exact List.mem_of_mem_drop hr
  · rw [List.length_drop] at h
    obtain rfl : n = 0 := by omega
    exact hfull (by omega)

theorem queueLaw_of_move {c : Instr} {s t : State} (h : Move c s t) (hs : QueueLaw s.events) : QueueLaw t.events := by
  cases h with
  | reset => exact ⟨fun _ h => (nomatch h), Nat.zero_le _, fun h => nomatch h⟩
  | link k => cases k <;> exact hs
  | tones start fields =>
    obtain ⟨_, _, _, ht⟩ := s.writeFields_eq start fields
    rw [ht]
    exact hs
  | readEvents r => exact hs.drop r
  | arrive r => exact hs.enqueue r
  | _ => exact hs

/-- Settles O56: records arrive one by one, none of them an OVERFLOW record, and reads take the oldest. -/
theorem eventQueueKept : Obligations.EventQueueKept := kept_of_move (fun _ _ h => h) queueLaw_of_move

/-! ### The deposit buffer (R47) -/

theorem Deposit.Becomes.law {d e : Option Deposit} (h : Deposit.Becomes d e)
    (hd : ∀ x, d = some x → x.samples.length ≤ 40 * x.cells ∧ 1 ≤ x.cells ∧ x.cells ≤ 8) :
    ∀ x, e = some x → x.samples.length ≤ 40 * x.cells ∧ 1 ≤ x.cells ∧ x.cells ≤ 8 := by
  cases h with
  | closed => exact fun _ h => nomatch h
  | opened _ mask source time control gain =>
    rintro x ⟨⟩
    have := (control.extractLsb' 5 3).isLt
    exact ⟨Nat.zero_le _, Nat.le_add_left _ _, show (control.extractLsb' 5 3).toNat + 1 ≤ 8 by omega⟩
  | appended d samples =>
    rintro x ⟨⟩
    obtain ⟨h1, h2⟩ := hd d rfl
    refine ⟨?_, h2⟩
    show (d.samples ++ samples.take (d.room - d.samples.length)).length ≤ 40 * d.cells
    rw [List.length_append, List.length_take, Deposit.room]
    omega
  | broken =>
    intro x hx
    obtain ⟨y, hy, rfl⟩ := Option.map_eq_some_iff.mp hx
    exact hd y hy

theorem depositLaw_of_move {c : Instr} {s t : State} (h : Move c s t) (hs : s.DepositLaw) : t.DepositLaw := by
  cases h with
  | reset => exact fun _ h => nomatch h
  | link k => cases k <;> exact hs
  | tones start fields =>
    obtain ⟨_, _, _, ht⟩ := s.writeFields_eq start fields
    rw [ht]
    exact hs
  | deposit d hc hd => exact hd.law hs
  | _ => exact hs

/-! ### The tone table (R105, R106) -/

theorem State.ToneLaw.takeField {s : State} (h : s.ToneLaw) (f : Word16) : (s.takeField f).ToneLaw := by
  obtain ⟨hlen, hcur, hstage, hrange⟩ := h
  unfold State.takeField
  split
  next a b hs =>
    refine ⟨by simpa using hlen, Nat.mod_lt _ (by decide), Nat.zero_le _, fun e he => ?_⟩
    obtain he | he := List.mem_or_eq_of_mem_set he
    · exact hrange e he
    · rw [he]
      exact ⟨Nat.min_le_right _ _, Nat.min_le_right _ _, Nat.min_le_right _ _⟩
  next hn =>
    refine ⟨hlen, hcur, ?_, hrange⟩
    show (s.toneStaging ++ [f]).length ≤ 2
    match hst : s.toneStaging with
    | [] => exact Nat.le_succ 1
    | [_] => exact Nat.le_refl 2
    | [a, b] => exact absurd hst (hn a b)
    | _ :: _ :: _ :: _ =>
      rw [hst] at hstage
      simp at hstage

theorem State.ToneLaw.writeFields {s : State} (h : s.ToneLaw) {start : Byte} (hs : toneStartOk start = true) (fields : List Word16) :
    (s.writeFields start fields).ToneLaw := by
  have hstart : (s.startTones start).ToneLaw := by
    unfold State.startTones
    split
    · exact h
    next hne =>
      refine ⟨h.1, ?_, Nat.zero_le _, h.2.2.2⟩
      have : start.toNat < 32 ∨ start = 0xFF := by simpa [toneStartOk] using hs
      exact this.resolve_right hne
  unfold State.writeFields
  generalize s.startTones start = u at hstart
  induction fields generalizing u with
  | nil => exact hstart
  | cons f fields ih => exact ih _ (hstart.takeField f)

theorem toneLaw_reset : State.reset.ToneLaw := by
  refine ⟨rfl, by decide, by decide, fun e he => ?_⟩
  rw [(List.mem_replicate.mp he).2]
  decide

theorem toneLaw_of_move {c : Instr} {s t : State} (h : Move c s t) (hs : s.ToneLaw) : t.ToneLaw := by
  cases h with
  | reset => exact toneLaw_reset
  | link k => cases k <;> exact hs
  | tones start fields hst => exact hs.writeFields hst fields
  | _ => exact hs

/-! ### The program table (R108, R109) -/

theorem toneOf_some {b : Byte} {e : Option Nat} (h : toneOf b = some e) : ∀ n, e = some n → n ≤ 31 := by
  unfold toneOf at h
  split at h
  · cases h
    rintro n ⟨⟩
    omega
  · split at h
    · cases h
      exact fun _ h => nomatch h
    · cases h

theorem RawSegment.segment_law {g : RawSegment} (ht : RawSegment.toneOk g = true) (hd : RawSegment.durationOk g = true) :
    (∀ e, (RawSegment.segment g).tone = some e → e ≤ 31) ∧ 1 ≤ (RawSegment.segment g).duration ∧
      (RawSegment.segment g).duration ≤ 4000 := by
  obtain ⟨e, he⟩ := Option.isSome_iff_exists.mp ht
  simp only [RawSegment.durationOk, Bool.and_eq_true, decide_eq_true_eq] at hd
  refine ⟨?_, hd⟩
  show ∀ n, (toneOf g.tone).getD none = some n → n ≤ 31
  rw [he]
  exact toneOf_some he

theorem programLaw_reset : State.reset.ProgramLaw := by
  refine ⟨rfl, fun p hp => ?_⟩
  rw [(List.mem_replicate.mp hp).2]
  exact ⟨Nat.zero_le _, Nat.zero_le _, fun _ h => nomatch h⟩

theorem programLaw_of_move {c : Instr} {s t : State} (h : Move c s t) (hs : s.ProgramLaw) : t.ProgramLaw := by
  cases h with
  | reset => exact programLaw_reset
  | link k => cases k <;> exact hs
  | tones start fields =>
    obtain ⟨_, _, _, ht⟩ := s.writeFields_eq start fields
    rw [ht]
    exact hs
  | program record control repeats count segments gs hc hgs hchecks =>
    have hchecks := firstFailing_eq_none.mp hchecks
    simp only [writeProgramChecks, List.mem_cons, List.not_mem_nil, or_false, forall_eq_or_imp, forall_eq, List.all_eq_true] at hchecks
    obtain ⟨-, htone, hdur, -⟩ := hchecks
    refine ⟨by simpa using hs.1, fun p hp => ?_⟩
    obtain hp | rfl := List.mem_or_eq_of_mem_set hp
    · exact hs.2 p hp
    · refine ⟨by simpa [programRecord] using hgs, show repeats.toNat ≤ 255 by have := repeats.isLt; omega, fun g hg => ?_⟩
      obtain ⟨x, hx, rfl⟩ := List.mem_map.mp hg
      exact RawSegment.segment_law (htone x hx) (hdur x hx)
  | _ => exact hs

/-- Settles O57: seven laws, each kept move by move. -/
theorem rangesAndTablesKept : Obligations.RangesAndTablesKept :=
  ⟨Line.slipLaw_keeps.kept, kept_of_move (fun _ _ h => h) depositLaw_of_move, kept_of_move (fun _ _ h => h) toneLaw_of_move,
    kept_of_move (fun _ _ h => h) programLaw_of_move, Line.statsLaw_keeps.kept, Line.fskLaw_keeps.keeps.kept,
    Kept.and_eachLine Line.depthLaw_keeps⟩

end Sys2Proof.Machine
end

section
/-! What a move reaches of the Sample Store and of the rings: most moves reach neither, and the few that do are named; then the laws of the store's cells,
of the Partition Table and of the rings' contents. -/

namespace Sys2Proof.Machine

/-! ### The canonical form of the store, and laws of single cells -/

section Cells

variable {st : Store}

theorem Store.wf_lineWrite (L : Line) (w : Write) (h : st.wf = true) : (L.write w st).2.1.wf = true := by
  have ha : (st.settledAnchor L w).wf = true := by
    unfold Store.settledAnchor
    split
    · exact Store.wf_clearSource _ _ h _
    · exact h
  unfold Line.write
  dsimp only
  split
  · split
    · exact Store.wf_placeCells ha
    · exact ha
  · exact h

/-- Every cell has the property. -/
def Store.Each (Q : StoreCell → Prop) (st : Store) : Prop := ∀ a, Q (st.read a)

variable {Q : StoreCell → Prop}

theorem Store.Each.write (h : st.Each Q) (hw : st.wf = true) (a : Nat) {c : StoreCell} (hc : Q c) : (st.write a c).Each Q := by
  intro b
  by_cases ha : a < 1024
  · rw [Store.read_write b c hw ha]
    split
    · exact hc
    · exact h b
  · rw [Store.write, if_pos (Nat.not_lt.mp ha)]
    exact h b

theorem Store.Each.emptyRing (h : st.Each Q) (hw : st.wf = true) (hr : Q .reset) (L : Line) : (st.emptyRing L).Each Q := by
  unfold Store.emptyRing
  generalize L.lp = n
  induction n with
  | zero => exact h
  | succ n ih => exact ih.write (Store.wf_emptyCells _ hw n) _ hr

theorem Store.Each.lineWrite (h : st.Each Q) (hw : st.wf = true) (L : Line) {w : Write}
    (hd : ∀ c, Q c → Q (c.dropSource w.source)) (hm : ∀ c x, x ∈ w.cells → Q c → Q (c.mixed w x.2)) : (L.write w st).2.1.Each Q := by
  have hclear (n : Nat) : (st.clearSource w.source L.playBase n).Each Q := by
    induction n with
    | zero => exact h
    | succ n ih => exact ih.write (Store.wf_clearSource _ _ hw n) _ (hd _ (ih _))
  have ha : (st.settledAnchor L w).Each Q ∧ (st.settledAnchor L w).wf = true := by
    unfold Store.settledAnchor
    split
    · exact ⟨hclear _, Store.wf_clearSource _ _ hw _⟩
    · exact ⟨h, hw⟩
  have hplace (M : Line) (d0 : Int) (cs : List (Nat × List Sample)) (hcs : ∀ x ∈ cs, x ∈ w.cells) : ∀ a : Store × Tally,
      a.1.Each Q → a.1.wf = true → (cs.foldl (M.placeCell w d0) a).1.Each Q := by
    induction cs with
    | nil => exact fun _ h _ => h
    | cons x cs ih =>
      intro a hq hwf
      obtain ⟨hx, hcs⟩ := List.forall_mem_cons.mp hcs
      refine ih hcs _ ?_ (Store.wf_placeCell x hwf)
      unfold Line.placeCell
      dsimp only
      split
      · exact hq
      · split
        · exact hq
        · split
          · exact hq
          · exact hq.write hwf _ (hm _ x hx (hq _))
  unfold Line.write
  dsimp only
  split
  · split
    · exact hplace _ _ w.cells (fun _ h => h) _ ha.1 ha.2
    · exact ha.1
  · exact h

end Cells

theorem storeLaw_of_move {c : Instr} {s t : State} (h : Move c s t) (hs : s.StoreLaw) : t.StoreLaw := by
  cases h with
  | reset => exact rfl
  | link k => cases k <;> exact hs
  | tones start fields =>
    obtain ⟨_, _, _, ht⟩ := s.writeFields_eq start fields
    rw [ht]
    exact hs
  | writeLine j l => exact Store.wf_lineWrite _ _ hs
  | enable | disable | clear => exact Store.wf_emptyRing _ hs
  | store => exact Store.wf_write _ _ hs
  | load => exact Store.wf_write _ _ hs
  | _ => exact hs

/-- A law of single cells that reset cells and capture records obey, and that clearing a source and mixing keep, holds of every cell after every
step. -/
theorem eachCell_of_move {Q : StoreCell → Prop} {c : Instr} {s t : State} (h : Move c s t) (hw : s.StoreLaw) (hs : s.store.Each Q)
    (hreset : Q .reset) (hrecord : ∀ l, (s.line l).captureDue = true → Q ((s.line l).captureRecord s.programs s.endedCell))
    (hd : ∀ m c, Q c → Q (c.dropSource m))
    (hm : ∀ j, s.job = some j → ∀ c x, x ∈ j.write.cells → Q c → Q (c.mixed j.write x.2)) : t.store.Each Q := by
  cases h with
  | reset => exact fun _ => hreset
  | link k => cases k <;> exact hs
  | tones start fields =>
    obtain ⟨_, _, _, ht⟩ := s.writeFields_eq start fields
    rw [ht]
    exact hs
  | writeLine j l hc hj => exact hs.lineWrite hw _ (hd _) (hm j hj)
  | enable | disable | clear => exact hs.emptyRing hw hreset _
  | store l h => exact hs.write hw _ (hrecord l h)
  | load => exact hs.write hw _ hreset
  | _ => exact hs

/-! ### Source sets and kinds (R20) -/

theorem StoreCell.slotLaw_reset : StoreCell.reset.SlotLaw := by
  rintro r ⟨⟩
  exact ⟨⟨fun _ => rfl, fun _ => rfl⟩, ⟨fun _ => rfl, fun _ => rfl⟩, fun _ => rfl⟩

theorem Four.set_true_ne_all_false (f : Four Bool) (i : Fin 4) : f.set i true ≠ Four.all false := by
  intro h
  have := congrArg (fun g => Four.get g i) h
  rw [Four.get_set_same, Four.get_all] at this
  cases this

theorem Kinds.add_ne (k : Kinds) (w : WriteKind) : k.add w ≠ ⟨false, false⟩ := by
  cases w <;> simp [Kinds.add]

theorem StoreCell.slotLaw_filled {samples : List Sample} {sources : Four Bool} {kinds : Kinds} (hs : sources ≠ Four.all false)
    (hk : kinds ≠ ⟨false, false⟩) : StoreCell.SlotLaw ⟨samples, .slot ⟨.filled, sources, kinds⟩⟩ := by
  rintro r ⟨⟩
  exact ⟨⟨fun h => (nomatch h), fun h => absurd h hs⟩, ⟨fun h => (nomatch h), fun h => absurd h hk⟩, fun h => nomatch h⟩

theorem StoreCell.SlotLaw.mixed {c : StoreCell} (w : Write) (cell : List Sample) : (c.mixed w cell).SlotLaw := by
  unfold StoreCell.mixed
  split
  · split
    · exact StoreCell.slotLaw_filled (Four.set_true_ne_all_false _ _) (Kinds.add_ne _ _)
    · exact StoreCell.slotLaw_filled (Four.set_true_ne_all_false _ _) (Kinds.add_ne _ _)
  · exact StoreCell.slotLaw_filled (Four.set_true_ne_all_false _ _) (Kinds.add_ne _ _)

theorem StoreCell.SlotLaw.dropSource {c : StoreCell} (h : c.SlotLaw) (m : Fin 4) : (c.dropSource m).SlotLaw := by
  unfold StoreCell.dropSource
  split
  next hm =>
    split
    · exact StoreCell.slotLaw_reset
    next hne =>
      cases hc : c.info with
      | capture i =>
        rw [StoreCell.slot, hc] at hm
        simp [SlotRecord.empty] at hm
      | slot r =>
        obtain ⟨h1, h2, h3⟩ := h r hc
        have hslot : c.slot = r := by rw [StoreCell.slot, hc]
        rw [hslot] at hm hne ⊢
        have hstate : r.state ≠ .empty := fun he => by
          rw [h1.mp he, Four.get_all] at hm
          cases hm
        rintro x ⟨⟩
        exact ⟨⟨fun h => absurd h hstate, fun h => absurd h hne⟩, h2, fun h => absurd h hstate⟩
  · exact h

theorem slotLaw_of_move {c : Instr} {s t : State} (h : Move c s t) (hw : s.StoreLaw) (hs : s.SlotLaw) : t.SlotLaw :=
  eachCell_of_move h hw hs StoreCell.slotLaw_reset (fun l _ r hr => by simp [Line.captureRecord] at hr) (fun m _ h => h.dropSource m) fun j _ _ x _ _ =>
    StoreCell.SlotLaw.mixed j.write x.2

/-- Settles O48: every operation on the store keeps its form, and every cell written obeys R20. -/
theorem storeAndSlotsKept : Obligations.StoreAndSlotsKept :=
  ⟨kept_of_move (fun _ _ h => h) storeLaw_of_move,
    kept_of_move (fun _ _ h => h) fun hm h => ⟨storeLaw_of_move hm h.1, slotLaw_of_move hm h.1 h.2⟩⟩

/-! ### Forty samples (R10, R11, R15, R47, R69, R72) -/

/-- A store cell holds 40 samples. -/
def StoreCell.Whole (c : StoreCell) : Prop := c.samples.length = 40

theorem silence_length : silence.length = 40 := List.length_replicate

theorem transform_length (invert : Bool) (g : Int) (cell : List Sample) : (transform invert g cell).length = cell.length :=
  List.length_map _

theorem addCells_length {a b : List Sample} (ha : a.length = 40) (hb : b.length = 40) : (addCells a b).length = 40 := by
  rw [addCells, List.length_zipWith, ha, hb]
  rfl

theorem Tone.samples_length (n : Nat) (t : Tone) : (t.samples n).length = n := by
  induction n generalizing t with
  | zero => rfl
  | succ n ih => rw [Tone.samples, List.length_cons, ih]

theorem Fsk.samples_length (onHook : Bool) (m : CidMessage) (n : Nat) (f : Fsk) : (f.samples onHook m n).length = n := by
  induction n generalizing f with
  | zero => rfl
  | succ n ih => rw [Fsk.samples, List.length_cons, ih]

theorem Line.renderCell_length (L : Line) (tones : List ToneEntry) (programs : List ProgramRecord) (c : Context) :
    (L.renderCell tones programs c).length = 40 := by
  unfold Line.renderCell
  split
  · unfold ProgramRun.render ProgramRun.cell
    split
    · exact Tone.samples_length 40 _
    · exact silence_length
  · exact Fsk.samples_length _ _ 40 _
  · unfold Line.alertCell
    split
    · exact Tone.samples_length 40 _
    · exact silence_length
    · exact silence_length
    · exact Fsk.samples_length _ _ 40 _

theorem Line.content_length {L : Line} {slot : StoreCell} {pattern : List Sample} (hs : slot.samples.length = 40)
    (hp : pattern.length = 40) (hr : ∀ b, L.repeatBuffer = some b → b.length = 40) : (L.content slot pattern).length = 40 := by
  have ht : (transform false L.config.fillGain pattern).length = 40 := (transform_length _ _ _).trans hp
  unfold Line.content Line.conceal
  split
  · exact hs
  · split
    · exact silence_length
    · split
      next b hb =>
        split
        · exact (List.length_map _).trans (hr b hb)
        · exact ht
      · exact ht
    · exact ht
    · exact silence_length

theorem Line.finalCell_length (L : Line) (i : LoadInput) {content : List Sample} (hc : content.length = 40) :
    (L.finalCell i content).length = 40 := by
  unfold Line.finalCell
  split
  · unfold joinCell
    split
    · exact addCells_length hc (L.renderCell_length _ _ _)
    · exact L.renderCell_length _ _ _
  · exact hc

theorem StoreCell.Whole.mixed {c : StoreCell} (h : c.Whole) (w : Write) {cell : List Sample} (hc : cell.length = 40) :
    (c.mixed w cell).Whole := by
  unfold StoreCell.mixed
  split
  · split
    · exact hc
    · exact addCells_length h hc
  · exact hc

theorem StoreCell.Whole.dropSource {c : StoreCell} (h : c.Whole) (m : Fin 4) : (c.dropSource m).Whole := by
  unfold StoreCell.dropSource
  split
  · split
    · exact silence_length
    · exact h
  · exact h

/-- The cells that a commit or a fill makes are whole (R47, R67). -/
theorem State.Makes.whole {s : State} {w : Write} (h : s.Makes w) (hp : s.fillPattern.length = 40) : ∀ c ∈ w.cells, c.2.length = 40 := by
  cases h with
  | deposit d hd hroom =>
    intro c hc
    obtain ⟨i, hi, rfl⟩ := List.mem_map.mp hc
    have hi := List.mem_range.mp hi
    show (transform _ _ _).length = 40
    rw [transform_length, List.length_take, List.length_drop]
    unfold Deposit.room at hroom
    omega
  | fill m time control gain =>
    intro c hc
    obtain ⟨i, -, rfl⟩ := List.mem_map.mp hc
    exact (transform_length _ _ _).trans hp

section Samples

variable {L : Line} {gone : Nat}

/-- The law of a line's samples speaks of these fields alone. -/
theorem Line.SampleLaw.of_same {M : Line} (h : L.SampleLaw gone) (h1 : M.playFirst = L.playFirst) (h2 : M.playSecond = L.playSecond)
    (h3 : M.repeatBuffer = L.repeatBuffer) (h4 : M.enabled = L.enabled) (h5 : M.started = L.started) (h6 : M.fillingHalf = L.fillingHalf)
    (h7 : M.closedHalf = L.closedHalf) (h8 : M.due.capture = L.due.capture) (h9 : M.due.start = L.due.start) : M.SampleLaw gone := by
  unfold Line.SampleLaw
  rw [h1, h2, h3, h4, h5, h6, h7, h8, h9]
  exact h

theorem Line.sampleLaw_of_disabled (h1 : L.playFirst.samples.length = 40) (h2 : L.playSecond.samples.length = 40)
    (h3 : ∀ b, L.repeatBuffer = some b → b.length = 40) (he : L.enabled = false) : L.SampleLaw gone :=
  ⟨h1, h2, h3, fun h => absurd (h.symm.trans he) Bool.noConfusion, fun h => absurd (h.symm.trans he) Bool.noConfusion⟩

theorem Line.SampleLaw.move (h : L.SampleLaw gone) {c : Instr} {programs : List ProgramRecord} {M : Line}
    (hm : Line.Move c programs L M) : M.SampleLaw gone := by
  obtain ⟨_, _, _, _, _, _, _, _, _, _, _, _, _, _, rfl⟩ | ⟨v, rfl⟩ | ⟨slip, rfl⟩ | ⟨r, -, rfl⟩ | rfl | ⟨hdue, rfl⟩ := hm.served_or
  case inr.inr.inr.inr.inr =>
    simp only [Line.startDue, Bool.and_eq_true, Bool.not_eq_true'] at hdue
    obtain ⟨⟨he, hs⟩, hd⟩ := hdue
    obtain ⟨h1, h2, h3, -, h5⟩ := h
    obtain ⟨hcap, hframe⟩ := h5 he hs
    refine ⟨h1, h2, h3, fun _ _ => ⟨(hframe hd).symm, fun hc => ?_⟩, fun _ hn => nomatch hn⟩
    have hc : L.due.capture = true := hc
    rw [hcap] at hc
    cases hc
  all_goals exact h.of_same rfl rfl rfl rfl rfl rfl rfl rfl rfl

/-- A line may hold another buffer and other halves of 40 samples. -/
theorem Line.SampleLaw.withHalf (h : L.SampleLaw gone) (i : HalfId) {x : PlayHalf} (hx : x.samples.length = 40) :
    (L.setHalf i x).SampleLaw gone := by
  obtain ⟨h1, h2, h3, h4, h5⟩ := h
  cases i
  · exact ⟨hx, h2, h3, h4, h5⟩
  · exact ⟨h1, hx, h3, h4, h5⟩

theorem Line.Calls.sampleLaw {M : Line} (hc : Line.Calls L M) (h : L.SampleLaw gone) : M.SampleLaw gone := by
  obtain ⟨_, _, _, _, _, _, _, _, rfl, -⟩ := hc
  exact h

theorem Line.SampleLaw.stageContent (h : L.SampleLaw gone) {slot : StoreCell} (hs : slot.samples.length = 40) :
    (L.stageContent slot).SampleLaw gone := by
  obtain ⟨h1, h2, h3, h4, h5⟩ := h
  unfold Line.stageContent
  split
  · refine ⟨h1, h2, fun b hb => ?_, h4, h5⟩
    unfold Line.filledLoaded at hb
    dsimp only at hb
    split at hb
    · cases hb
      exact hs
    · exact h3 b hb
  · unfold Line.emptyLoaded
    dsimp only
    split <;> exact ⟨h1, h2, h3, h4, h5⟩

theorem Line.SampleLaw.loadCell (h : L.SampleLaw gone) {i : LoadInput} (hs : i.slot.samples.length = 40) (hp : i.pattern.length = 40) :
    (L.loadCell i).1.SampleLaw gone := by
  unfold Line.loadCell
  dsimp only
  have hm := L.stageMode_calls.sampleLaw h
  have hcell := (L.stageMode.1.stageContent i.slot).finalCell_length i (Line.content_length hs hp hm.2.2.1)
  have hc := hm.stageContent hs
  generalize Line.finalCell _ i _ = cell at hcell ⊢
  generalize Line.carriesOutput _ = output
  have hr : ((L.stageMode.1.stageContent i.slot).stageRender i).1.SampleLaw gone := by
    obtain ⟨_, hr⟩ := (L.stageMode.1.stageContent i.slot).stageRender_calls i
    exact hr.sampleLaw hc
  generalize ((L.stageMode.1.stageContent i.slot).stageRender i).1 = R at hr ⊢
  have hslip : (R.stageSlip output cell).SampleLaw gone := by
    obtain ⟨_, _, _, hs⟩ := R.stageSlip_frame output cell
    rw [hs]
    exact hr
  have hfeed := (Line.stageFeed_calls _ cell).sampleLaw hslip
  obtain ⟨_, _, hw⟩ := Line.stageWindow_frame (Line.stageLoad ((R.stageSlip output cell).stageFeed cell).1 cell (R.slipOfCell output cell))
  rw [hw]
  exact (hfeed.withHalf _ (x := ⟨cell, _, _⟩) hcell).of_same rfl rfl rfl rfl rfl rfl rfl rfl rfl

theorem Line.closeCapture_halves (L : Line) : L.closeCapture.fillingHalf = .reset ∧ L.closeCapture.closedHalf.samples = L.fillingHalf.samples := by
  unfold Line.closeCapture Line.fillingHalf Line.closedHalf Line.setCapture
  cases L.filling <;> exact ⟨rfl, rfl⟩

/-- A boundary, at the end of the 40th frame (R3, R11). -/
theorem Line.SampleLaw.boundary (h : L.SampleLaw 40) : L.boundary.SampleLaw 0 := by
  obtain ⟨h1, h2, h3, h4, h5⟩ := h
  unfold Line.boundary
  split
  next he =>
    split
    next hs =>
      obtain ⟨hopen, hclosed⟩ := L.closeCapture_halves
      rw [Line.boundaryRing_eq]
      have hM : ∀ M : Line, M.playFirst = L.playFirst → M.playSecond = L.playSecond → M.repeatBuffer = L.repeatBuffer →
          M.started = L.started → M.fillingHalf = L.closeCapture.fillingHalf → M.closedHalf = L.closeCapture.closedHalf →
          M.SampleLaw 0 := by
        intro M m1 m2 m3 m4 m5 m6
        refine ⟨m1 ▸ h1, m2 ▸ h2, fun b hb => h3 b (m3 ▸ hb), fun _ _ => ⟨by rw [m5, hopen]; rfl, fun _ => ?_⟩, fun _ hn => ?_⟩
        · rw [m6, hclosed]
          exact (h4 he hs).1
        · rw [m4, hs] at hn
          cases hn
      obtain ⟨_, _, hc⟩ := L.closeCapture_frame
      have p1 : L.closeCapture.playFirst = L.playFirst := by rw [hc]
      have p2 : L.closeCapture.playSecond = L.playSecond := by rw [hc]
      have p3 : L.closeCapture.repeatBuffer = L.repeatBuffer := by rw [hc]
      have p4 : L.closeCapture.started = L.started := by rw [hc]
      split <;> exact hM _ p1 p2 p3 p4 rfl rfl
    next hs =>
      refine ⟨h1, h2, h3, fun _ hst => absurd hst hs, fun he hst => ⟨(h5 he hst).1, fun _ => rfl⟩⟩
  next he => exact Line.sampleLaw_of_disabled h1 h2 h3 (Bool.eq_false_iff.mpr he)

theorem Line.receive_halves (L : Line) (x : Sample) : (L.receive x).fillingHalf.samples = L.fillingHalf.samples ++ [x] ∧
    (L.receive x).closedHalf = L.closedHalf := by
  unfold Line.receive Line.fillingHalf Line.closedHalf Line.setCapture
  cases L.filling <;> exact ⟨rfl, rfl⟩

/-- A frame, with no start boundary left to take (R4, R11). -/
theorem Line.SampleLaw.frame (h : L.SampleLaw gone) (hs : L.startDue = false) (x : Sample) (pin : Bool) :
    (L.frame x pin).SampleLaw (gone + 1) := by
  obtain ⟨h1, h2, h3, h4, h5⟩ := h
  unfold Line.frame
  dsimp only
  split
  next hon =>
    obtain ⟨he, hst⟩ := hon
    obtain ⟨hlen, hclosed⟩ := h4 he hst
    obtain ⟨hfill, hcl⟩ := Line.receive_halves { L with hookPin := pin } x
    have hM : ∀ M : Line, M.playFirst = L.playFirst → M.playSecond = L.playSecond → M.repeatBuffer = L.repeatBuffer →
        M.started = L.started → M.due.capture = L.due.capture →
        M.fillingHalf = (Line.receive { L with hookPin := pin } x).fillingHalf →
        M.closedHalf = (Line.receive { L with hookPin := pin } x).closedHalf → M.SampleLaw (gone + 1) := by
      intro M m1 m2 m3 m4 m5 m6 m7
      refine ⟨m1 ▸ h1, m2 ▸ h2, fun b hb => h3 b (m3 ▸ hb), fun _ _ => ⟨?_, fun hd => ?_⟩, fun _ hn => ?_⟩
      · rw [m6, hfill, List.length_append]
        exact congrArg (· + 1) hlen
      · rw [m7, hcl]
        exact hclosed (m5 ▸ hd)
      · rw [m4, hst] at hn
        cases hn
    obtain ⟨_, _, hr⟩ := Line.receive_frame { L with hookPin := pin } x
    unfold Line.send
    have p1 : (Line.receive { L with hookPin := pin } x).playFirst = L.playFirst := by rw [hr]
    have p2 : (Line.receive { L with hookPin := pin } x).playSecond = L.playSecond := by rw [hr]
    have p3 : (Line.receive { L with hookPin := pin } x).repeatBuffer = L.repeatBuffer := by rw [hr]
    have p4 : (Line.receive { L with hookPin := pin } x).started = L.started := by rw [hr]
    have p5 : (Line.receive { L with hookPin := pin } x).due.capture = L.due.capture := by rw [hr]
    split <;> exact hM _ p1 p2 p3 p4 p5 rfl rfl
  next hoff =>
    refine ⟨h1, h2, h3, fun he hst => absurd ⟨he, hst⟩ hoff, fun he hst => ⟨(h5 he hst).1, fun hd => ?_⟩⟩
    have hd : L.due.start = true := hd
    rw [Line.startDue, show L.enabled = true from he, show L.started = false from hst, hd] at hs
    cases hs

end Samples

theorem sampleLaw_reset : State.reset.SampleLaw := by
  refine ⟨Nat.zero_le _, silence_length, fun _ => silence_length, fun _ h => (nomatch h), fun l => ?_⟩
  rw [show State.reset.line l = Line.reset from Four.get_all _ _]
  exact Line.sampleLaw_of_disabled silence_length silence_length (fun _ h => nomatch h) rfl

theorem sampleLaw_of_move {c : Instr} {s t : State} (h : Move c s t) (hw : s.StoreLaw) (hs : s.SampleLaw) : t.SampleLaw := by
  obtain ⟨hframe, hpattern, hcells, hjob, hlines⟩ := hs
  have hstore : t.store.Each StoreCell.Whole := by
    refine eachCell_of_move h hw hcells silence_length (fun l hd => ?_) (fun m _ h => h.dropSource m) fun j hj _ x hx h =>
      h.mixed j.write (hjob j hj x hx)
    simp only [Line.captureDue, Bool.and_eq_true] at hd
    obtain ⟨⟨he, hst⟩, hcap⟩ := hd
    exact ((hlines l).2.2.2.1 he hst).2 hcap
  have hset {u : State} {l : Fin 4} {L : Line} (hu : u.lines = s.lines) (hL : L.SampleLaw s.frame) :
      (u.setLine l L).EachLine (Line.SampleLaw s.frame) := by
    intro i
    rw [State.line_setLine]
    split
    · exact hL
    · rw [State.line_of_lines hu]
      exact hlines i
  cases h with
  | reset low cFrame mFrame => exact ⟨Nat.zero_le _, silence_length, hstore, fun _ h => (nomatch h), sampleLaw_reset.2.2.2.2⟩
  | link k => cases k <;> exact ⟨hframe, hpattern, hstore, hjob, hlines⟩
  | tones start fields =>
    obtain ⟨_, _, _, ht⟩ := s.writeFields_eq start fields
    rw [ht] at hstore ⊢
    exact ⟨hframe, hpattern, hstore, hjob, hlines⟩
  | fillPattern xs hc hx => exact ⟨hframe, hx, hstore, hjob, hlines⟩
  | beginWrites w ls hc hmakes =>
    refine ⟨hframe, hpattern, hstore, ?_, hlines⟩
    rintro j ⟨⟩
    exact hmakes.whole hpattern
  | goOn j left report hc hj =>
    refine ⟨hframe, hpattern, hstore, ?_, hlines⟩
    rintro k ⟨⟩
    exact hjob j hj
  | finish => exact ⟨hframe, hpattern, hstore, fun _ h => (nomatch h), hlines⟩
  | writeLine j l =>
    refine ⟨hframe, hpattern, hstore, hjob, hset (u := s) rfl ?_⟩
    obtain ⟨_, _, _, _, _, hw⟩ := (s.line l).write_frame j.write s.store
    rw [hw]
    exact hlines l
  | configure l p q =>
    refine ⟨hframe, hpattern, hstore, hjob, hset rfl ?_⟩
    unfold Line.withRings
    split <;> exact hlines l
  | enable l =>
    exact ⟨hframe, hpattern, hstore, hjob, hset (u := s.setStore _) rfl
      ⟨silence_length, silence_length, fun _ h => (nomatch h), fun _ h => (nomatch h), fun _ _ => ⟨rfl, fun h => nomatch h⟩⟩⟩
  | disable l =>
    exact ⟨hframe, hpattern, hstore, hjob, hset (u := s.setStore _) rfl
      (Line.sampleLaw_of_disabled silence_length silence_length (fun _ h => nomatch h) rfl)⟩
  | clear l =>
    obtain ⟨h1, h2, -, h4, h5⟩ := hlines l
    exact ⟨hframe, hpattern, hstore, hjob, hset (u := s.setStore _) rfl ⟨h1, h2, fun _ h => (nomatch h), h4, h5⟩⟩
  | line l L hm => exact ⟨hframe, hpattern, hstore, hjob, hset rfl ((hlines l).move hm)⟩
  | store l hd =>
    refine ⟨hframe, hpattern, hstore, hjob, hset (u := s.setStore _) rfl ?_⟩
    obtain ⟨h1, h2, h3, h4, h5⟩ := hlines l
    obtain ⟨_, _, _, _, hst⟩ := (s.line l).stored_frame
    rw [hst]
    exact ⟨h1, h2, h3, fun he hs => ⟨(h4 he hs).1, fun h => nomatch h⟩, fun he hs => ⟨rfl, (h5 he hs).2⟩⟩
  | load l =>
    exact ⟨hframe, hpattern, hstore, hjob, hset (u := s.setStore _) rfl ((hlines l).loadCell (hcells _) hpattern)⟩
  | boundary hd =>
    simp only [State.boundaryDue, Bool.and_eq_true, decide_eq_true_eq] at hd
    have h40 : s.frame = 40 := Nat.le_antisymm hframe hd.2
    rw [h40] at hlines
    refine ⟨Nat.zero_le _, hpattern, hstore, hjob, fun l => ?_⟩
    rw [State.line_boundary]
    exact (hlines l).boundary
  | frame hrx hook hc ht hn =>
    obtain ⟨hb, hdue⟩ := hn
    have hlt : s.frame < 40 := by
      rw [State.boundaryDue, ht] at hb
      simpa using hb
    refine ⟨hlt, hpattern, hstore, hjob, fun l => ?_⟩
    rw [State.line_frameStep]
    exact (hlines l).frame (hdue l).1 _ _
  | _ => exact ⟨hframe, hpattern, hstore, hjob, hlines⟩

/-- Settles O49: the law with the frame count, move by move. -/
theorem cellsHoldFortySamples : Obligations.CellsHoldFortySamples :=
  kept_of_move (fun _ _ h => h) fun hm h => ⟨storeLaw_of_move hm h.1, sampleLaw_of_move hm h.1 h.2⟩

end Sys2Proof.Machine
end

section
/-! The rings under every step: the Partition Table (R17), the unread records of the capture rings (R25, R95, R98), and the empty ring of a line in
IDLE (R34, R71). -/

namespace Sys2Proof.Machine

/-! ### What a move reaches of the rings -/

/-- `M` has the entries, the playout state and the ring indices of `L`. -/
structure Line.Steady (L M : Line) : Prop where
  enabled : M.enabled = L.enabled
  playRing : M.playRing = L.playRing
  capRing : M.capRing = L.capRing
  playout : M.playout = L.playout
  anchors : M.anchors = L.anchors
  hs : M.hs = L.hs
  capWrite : M.capWrite = L.capWrite
  capRead : M.capRead = L.capRead
  unread : M.unread = L.unread

theorem Line.Steady.refl (L : Line) : L.Steady L := ⟨rfl, rfl, rfl, rfl, rfl, rfl, rfl, rfl, rfl⟩

/-- A line's own move is steady, or reads records out. -/
theorem Line.Move.steady_or {c : Instr} {programs : List ProgramRecord} {L M : Line} (h : Line.Move c programs L M) :
    L.Steady M ∨ ∃ r, r ≤ L.unread ∧ M = L.readOut r := by
  obtain ⟨_, _, _, _, _, _, _, _, _, _, _, _, _, _, rfl⟩ | ⟨v, rfl⟩ | ⟨slip, rfl⟩ | ⟨r, hr, rfl⟩ | rfl | ⟨-, rfl⟩ := h.served_or
  case inr.inr.inr.inl => exact .inr ⟨r, hr, rfl⟩
  all_goals exact .inl ⟨rfl, rfl, rfl, rfl, rfl, rfl, rfl, rfl, rfl⟩

/-- What a move does to the store and the rings: nothing; or it is one of nine operations. -/
theorem Move.steady_or {c : Instr} {s t : State} (h : Move c s t) :
    (t.store = s.store ∧ ∀ l, (s.line l).Steady (t.line l)) ∨
    (∃ low cFrame mFrame, t = State.afterReset low cFrame mFrame s.pending) ∨
    (∃ j l, t = s.writeLine j l) ∨
    (∃ l p q, firstFailing (configureChecks s l p q) = none ∧ t = s.setLine l ((s.line l).withRings p q)) ∨
    (∃ l, (s.line l).playRing.isSome = true ∧ t = (s.setStore (s.store.emptyRing (s.line l))).setLine l (s.line l).setUp) ∨
    (∃ l, t = (s.setStore (s.store.emptyRing (s.line l))).setLine l (s.line l).shutDown) ∨
    (∃ l, (s.line l).enabled = true ∧ t = (s.setStore (s.store.emptyRing (s.line l))).setLine l (s.line l).clear) ∨
    (∃ l r, r ≤ (s.line l).unread ∧ t = s.setLine l ((s.line l).readOut r)) ∨
    (∃ l, (s.line l).captureDue = true ∧ t = s.stored l) ∨
    ∃ l, (s.line l).loadDue = true ∧ t = s.loaded l := by
  have hsame {u : State} (hu : u.lines = s.lines) (l : Fin 4) : (s.line l).Steady (u.line l) := by
    rw [State.line_of_lines hu]
    exact .refl _
  cases h with
  | reset low cFrame mFrame => exact .inr (.inl ⟨low, cFrame, mFrame, rfl⟩)
  | link k => cases k <;> exact .inl ⟨rfl, hsame rfl⟩
  | tones start fields =>
    obtain ⟨_, _, _, ht⟩ := s.writeFields_eq start fields
    rw [ht]
    exact .inl ⟨rfl, hsame rfl⟩
  | writeLine j l => exact .inr (.inr (.inl ⟨_, l, rfl⟩))
  | configure l p q hc h => exact .inr (.inr (.inr (.inl ⟨l, p, q, h, rfl⟩)))
  | enable l hc he hp hq => exact .inr (.inr (.inr (.inr (.inl ⟨l, hp, rfl⟩))))
  | disable l => exact .inr (.inr (.inr (.inr (.inr (.inl ⟨l, rfl⟩)))))
  | clear l he => exact .inr (.inr (.inr (.inr (.inr (.inr (.inl ⟨l, he, rfl⟩))))))
  | line l L hm =>
    obtain hst | ⟨r, hr, rfl⟩ := hm.steady_or
    · refine .inl ⟨rfl, fun k => ?_⟩
      rw [State.line_setLine]
      split
      next hk =>
        rw [hk]
        exact hst
      · exact .refl _
    · exact .inr (.inr (.inr (.inr (.inr (.inr (.inr (.inl ⟨l, r, hr, rfl⟩)))))))
  | store l hd => exact .inr (.inr (.inr (.inr (.inr (.inr (.inr (.inr (.inl ⟨l, hd, rfl⟩))))))))
  | load l hc hd => exact .inr (.inr (.inr (.inr (.inr (.inr (.inr (.inr (.inr ⟨l, hd, rfl⟩))))))))
  | boundary =>
    refine .inl ⟨rfl, fun l => ?_⟩
    obtain ⟨_, _, _, _, _, _, _, _, _, _, _, hb⟩ := (s.line l).boundary_frame
    rw [State.line_boundary, hb]
    exact ⟨rfl, rfl, rfl, rfl, rfl, rfl, rfl, rfl, rfl⟩
  | frame hrx hook =>
    refine .inl ⟨rfl, fun l => ?_⟩
    obtain ⟨_, _, _, _, _, _, hf⟩ := (s.line l).frame_frame ((hrxSamples hrx).get l) (hook.get l)
    rw [State.line_frameStep, hf]
    exact ⟨rfl, rfl, rfl, rfl, rfl, rfl, rfl, rfl, rfl⟩
  | _ => exact .inl ⟨rfl, hsame rfl⟩

/-! ### The Partition Table (R17) -/

/-- The entries of line `k` after the record of line `l` is replaced by one with the same entries. -/
theorem State.entries_setLine {u : State} {l : Fin 4} {L : Line} (hp : L.playRing = (u.line l).playRing)
    (hc : L.capRing = (u.line l).capRing) (k : Fin 4) :
    ((u.setLine l L).line k).playRing = (u.line k).playRing ∧ ((u.setLine l L).line k).capRing = (u.line k).capRing := by
  rw [State.line_setLine]
  split
  next hk =>
    rw [hk]
    exact ⟨hp, hc⟩
  · exact ⟨rfl, rfl⟩

/-- A move keeps every entry, or is a DEVICE RESET or a CONFIGURE LINE (R16). -/
theorem Move.entries_or {c : Instr} {s t : State} (h : Move c s t) :
    (∀ l, (t.line l).playRing = (s.line l).playRing ∧ (t.line l).capRing = (s.line l).capRing) ∨
    (∃ low cFrame mFrame, t = State.afterReset low cFrame mFrame s.pending) ∨
    ∃ l p q, firstFailing (configureChecks s l p q) = none ∧ t = s.setLine l ((s.line l).withRings p q) := by
  obtain ⟨-, hst⟩ | h | ⟨w, l, rfl⟩ | h | ⟨l, -, rfl⟩ | ⟨l, rfl⟩ | ⟨l, -, rfl⟩ | ⟨l, r, -, rfl⟩ | ⟨l, -, rfl⟩ | ⟨l, -, rfl⟩ := h.steady_or
  · exact .inl fun l => ⟨(hst l).playRing, (hst l).capRing⟩
  · exact .inr (.inl h)
  · refine .inl (State.entries_setLine ?_ ?_) <;>
      obtain ⟨_, _, _, _, _, hw⟩ := (s.line l).write_frame w s.store <;> rw [hw]
  · exact .inr (.inr h)
  · exact .inl (State.entries_setLine rfl rfl)
  · exact .inl (State.entries_setLine rfl rfl)
  · exact .inl (State.entries_setLine rfl rfl)
  · exact .inl (State.entries_setLine rfl rfl)
  · refine .inl (State.entries_setLine ?_ ?_) <;>
      obtain ⟨_, _, _, _, hs⟩ := (s.line l).stored_frame <;> rw [hs] <;> rfl
  · exact .inl (State.entries_setLine ((s.line l).loadCell_timeline _).playRing ((s.line l).loadCell_timeline _).capRing)

theorem apart_none_left (b : Option RingEntry) : apart none b := fun _ _ h => nomatch h

theorem RingEntry.disjoint_comm (a b : RingEntry) : a.disjoint b = b.disjoint a := by
  rw [RingEntry.disjoint, RingEntry.disjoint, Bool.or_comm]

theorem apart_comm {a b : Option RingEntry} : apart a b ↔ apart b a :=
  ⟨fun h x y hx hy => RingEntry.disjoint_comm x y ▸ h y x hy hx, fun h x y hx hy => RingEntry.disjoint_comm x y ▸ h y x hy hx⟩

/-- An accepted ring is apart from the entries of every other line (R17). -/
theorem State.clearOfOthers_apart {s : State} {l k : Fin 4} {e : RingEntry} (h : s.clearOfOthers l e = true) (hk : k ≠ l) :
    apart (some e) (s.line k).playRing ∧ apart (some e) (s.line k).capRing := by
  have hk := List.all_eq_true.mp h k (mem_four k) |> fun h => (Bool.or_eq_true_iff.mp h).resolve_left (by simpa using hk)
  simp only [Bool.and_eq_true] at hk
  have hclear {r : Option RingEntry} (hr : e.clearOf r = true) : apart (some e) r := by
    rintro x y ⟨⟩ rfl
    exact hr
  exact ⟨hclear hk.1, hclear hk.2⟩

theorem Line.withRings_entries (L : Line) (p q : RingEntry) :
    ((L.withRings p q).playRing = none ∧ (L.withRings p q).capRing = none) ∨
      (¬(p.len = 0 ∧ q.len = 0) ∧ (L.withRings p q).playRing = some p ∧ (L.withRings p q).capRing = some q) := by
  unfold Line.withRings
  split
  · exact .inl ⟨rfl, rfl⟩
  next h => exact .inr ⟨h, rfl, rfl⟩

theorem partitionLaw_of_move {c : Instr} {s t : State} (h : Move c s t) (hs : s.PartitionLaw) : t.PartitionLaw := by
  obtain ⟨hring, hown, hothers⟩ := hs
  refine ⟨Line.ringLaw_keeps.eachLine h hring, ?_⟩
  obtain hsame | ⟨_, _, _, rfl⟩ | ⟨l, p, q, hchecks, rfl⟩ := h.entries_or
  · refine ⟨fun l => ?_, fun l k hlk => ?_⟩
    · rw [(hsame l).1, (hsame l).2]
      exact hown l
    · rw [(hsame l).1, (hsame l).2, (hsame k).1, (hsame k).2]
      exact hothers l k hlk
  · refine ⟨fun l => ?_, fun l k _ => ?_⟩
    · rw [State.line_afterReset]
      exact apart_none_left _
    · rw [State.line_afterReset, State.line_afterReset]
      exact ⟨apart_none_left _, apart_none_left _, apart_none_left _⟩
  · obtain ⟨-, haccepted, hclear⟩ := configureChecks_passed hchecks
    have hnew := (s.line l).withRings_entries p q
    have hfar (k : Fin 4) (hk : k ≠ l) :
        apart ((s.line l).withRings p q).playRing (s.line k).playRing ∧ apart ((s.line l).withRings p q).playRing (s.line k).capRing ∧
        apart ((s.line l).withRings p q).capRing (s.line k).playRing ∧ apart ((s.line l).withRings p q).capRing (s.line k).capRing := by
      obtain ⟨h1, h2⟩ | ⟨hz, h1, h2⟩ := hnew
      · rw [h1, h2]
        exact ⟨apart_none_left _, apart_none_left _, apart_none_left _, apart_none_left _⟩
      · rw [h1, h2]
        obtain ⟨hp, hq⟩ := hclear.resolve_left hz
        exact ⟨(State.clearOfOthers_apart hp hk).1, (State.clearOfOthers_apart hp hk).2, (State.clearOfOthers_apart hq hk).1,
          (State.clearOfOthers_apart hq hk).2⟩
    refine ⟨fun k => ?_, fun i k hik => ?_⟩
    · rw [State.line_setLine]
      split
      · obtain ⟨h1, h2⟩ | ⟨hz, h1, h2⟩ := hnew
        · rw [h1]
          exact apart_none_left _
        · rw [h1, h2]
          rintro x y ⟨⟩ ⟨⟩
          exact (haccepted.resolve_left hz).2.2.2.2.2.2
      · exact hown k
    · rw [State.line_setLine, State.line_setLine]
      split
      next hi =>
        subst hi
        rw [if_neg (Ne.symm hik)]
        obtain ⟨h1, h2, h3, h4⟩ := hfar k (Ne.symm hik)
        exact ⟨h1, h2, h4⟩
      next hi =>
        split
        · obtain ⟨h1, h2, h3, h4⟩ := hfar i hi
          exact ⟨apart_comm.mp h1, apart_comm.mp h3, apart_comm.mp h4⟩
        · exact hothers i k hik

/-- Settles O51: CONFIGURE LINE accepts rings apart from all others, and nothing else reaches the entries. -/
theorem partitionKept : Obligations.PartitionKept := kept_of_move (fun _ _ h => h) partitionLaw_of_move

/-! ### Where the store is written -/

/-- The two stores agree outside the playout ring of `L`. -/
def Store.AgreeOutside (L : Line) (st st' : Store) : Prop :=
  ∀ a, (a < L.playBase ∨ L.playBase + L.lp ≤ a) → st'.read a = st.read a

section Outside

variable {L : Line} {st : Store}

theorem Store.AgreeOutside.refl : Store.AgreeOutside L st st := fun _ _ => rfl

theorem Store.AgreeOutside.write {st' : Store} (h : Store.AgreeOutside L st st') (hw : st'.wf = true) {n : Nat} (hn : n < L.lp)
    (c : StoreCell) : Store.AgreeOutside L st (st'.write (L.playBase + n) c) := fun a ha => by
  rw [Store.read_write_ne c hw (by omega)]
  exact h a ha

theorem Store.agreeOutside_emptyRing (hw : st.wf = true) : Store.AgreeOutside L st (st.emptyRing L) := by
  unfold Store.emptyRing
  have h (n : Nat) (hn : n ≤ L.lp) : Store.AgreeOutside L st (st.emptyCells L.playBase n) := by
    induction n with
    | zero => exact .refl
    | succ n ih => exact (ih (by omega)).write (Store.wf_emptyCells _ hw n) hn _
  exact h _ (Nat.le_refl _)

theorem Store.agreeOutside_lineWrite (hw : st.wf = true) (hlp : L.enabled = true → 0 < L.lp) (w : Write) :
    Store.AgreeOutside L st (L.write w st).2.1 := by
  have hclear (n : Nat) (hn : n ≤ L.lp) : Store.AgreeOutside L st (st.clearSource w.source L.playBase n) := by
    induction n with
    | zero => exact .refl
    | succ n ih => exact (ih (by omega)).write (Store.wf_clearSource _ _ hw n) hn _
  have hsettled : Store.AgreeOutside L st (st.settledAnchor L w) ∧ (st.settledAnchor L w).wf = true := by
    unfold Store.settledAnchor
    split
    · exact ⟨hclear _ (Nat.le_refl _), Store.wf_clearSource _ _ hw _⟩
    · exact ⟨.refl, hw⟩
  have hring : (L.settledAnchor w).playBase = L.playBase ∧ (L.settledAnchor w).lp = L.lp := by
    unfold Line.settledAnchor
    split <;> exact ⟨rfl, rfl⟩
  have hplace (hlp : 0 < L.lp) (d0 : Int) (cs : List (Nat × List Sample)) : ∀ a : Store × Tally, Store.AgreeOutside L st a.1 →
      a.1.wf = true → Store.AgreeOutside L st (cs.foldl ((L.settledAnchor w).placeCell w d0) a).1 := by
    induction cs with
    | nil => exact fun _ h _ => h
    | cons x cs ih =>
      intro a ha hwf
      refine ih _ ?_ (Store.wf_placeCell x hwf)
      unfold Line.placeCell Line.slotAt
      rw [hring.1, hring.2]
      dsimp only
      split
      · exact ha
      · split
        · exact ha
        · split
          · exact ha
          · exact ha.write hwf (Nat.mod_lt _ hlp) _
  unfold Line.write
  dsimp only
  split
  next he =>
    split
    · exact hplace (hlp he) _ w.cells _ hsettled.1 hsettled.2
    · exact hsettled.1
  · exact .refl

end Outside

/-- Places of two rings that are apart are two cells. -/
theorem apart_ne {a b : Option RingEntry} (h : apart a b) {x y : RingEntry} (ha : a = some x) (hb : b = some y) {i j : Nat}
    (hi : i < x.len) (hj : j < y.len) : x.base + i ≠ y.base + j := by
  have hd := h x y ha hb
  simp only [RingEntry.disjoint, Bool.or_eq_true, decide_eq_true_eq] at hd
  omega

theorem Line.playEntry {L : Line} (h : 0 < L.lp) : L.playRing = some ⟨L.playBase, L.lp⟩ := by
  unfold Line.lp Line.playBase at *
  cases hp : L.playRing with
  | none => simp [hp] at h
  | some e => rfl

theorem Line.capEntry {L : Line} (h : 0 < L.lc) : L.capRing = some ⟨L.capBase, L.lc⟩ := by
  unfold Line.lc Line.capBase at *
  cases hp : L.capRing with
  | none => simp [hp] at h
  | some e => rfl

section Apart

variable {s : State}

/-- No place of a playout ring is a place of a capture ring, be it of the same line or another. -/
theorem State.PartitionLaw.play_ne_cap (h : s.PartitionLaw) (l k : Fin 4) {i j : Nat} (hi : i < (s.line l).lp) (hj : j < (s.line k).lc) :
    (s.line l).playBase + i ≠ (s.line k).capBase + j := by
  have hap : apart (s.line l).playRing (s.line k).capRing := by
    by_cases hlk : l = k
    · rw [hlk]
      exact h.2.1 k
    · exact (h.2.2 l k hlk).2.1
  exact apart_ne hap (Line.playEntry (by omega)) (Line.capEntry (by omega)) hi hj

theorem State.PartitionLaw.cap_ne_cap (h : s.PartitionLaw) {l k : Fin 4} (hlk : l ≠ k) {i j : Nat} (hi : i < (s.line l).lc)
    (hj : j < (s.line k).lc) : (s.line l).capBase + i ≠ (s.line k).capBase + j :=
  apart_ne (h.2.2 l k hlk).2.2 (Line.capEntry (by omega)) (Line.capEntry (by omega)) hi hj

theorem State.PartitionLaw.play_ne_play (h : s.PartitionLaw) {l k : Fin 4} (hlk : l ≠ k) {i j : Nat} (hi : i < (s.line l).lp)
    (hj : j < (s.line k).lp) : (s.line l).playBase + i ≠ (s.line k).playBase + j :=
  apart_ne (h.2.2 l k hlk).1 (Line.playEntry (by omega)) (Line.playEntry (by omega)) hi hj

/-- A write into the playout ring of a line leaves the places of every capture ring. -/
theorem State.PartitionLaw.cap_outside (h : s.PartitionLaw) {l k : Fin 4} {st : Store}
    (hst : Store.AgreeOutside (s.line l) s.store st) {j : Nat} (hj : j < (s.line k).lc) :
    st.read ((s.line k).capBase + j) = s.store.read ((s.line k).capBase + j) := by
  refine hst _ ?_
  by_contra hn
  have := h.play_ne_cap l k (i := (s.line k).capBase + j - (s.line l).playBase) (by omega) hj
  omega

/-- A write into the playout ring of a line leaves the slots of every other line. -/
theorem State.PartitionLaw.play_outside (h : s.PartitionLaw) {l k : Fin 4} (hlk : k ≠ l) {st : Store}
    (hst : Store.AgreeOutside (s.line l) s.store st) {j : Nat} (hj : j < (s.line k).lp) :
    st.read ((s.line k).playBase + j) = s.store.read ((s.line k).playBase + j) := by
  refine hst _ ?_
  by_contra hn
  have := h.play_ne_play (Ne.symm hlk) (i := (s.line k).playBase + j - (s.line l).playBase) (by omega) hj
  omega

end Apart

/-! ### Capture records (R25, R95, R98) -/

/-- The unread places of a line hold capture records. -/
def Line.RecordsIn (st : Store) (L : Line) : Prop :=
  ∀ k, k < L.unread → ∃ info, (st.read (L.capBase + (L.capRead + k) % L.lc)).info = .capture info

section RecordsIn

variable {s : State}

theorem Line.Steady.lp {L M : Line} (h : L.Steady M) : M.lp = L.lp := by rw [Line.lp, Line.lp, h.playRing]
theorem Line.Steady.lc {L M : Line} (h : L.Steady M) : M.lc = L.lc := by rw [Line.lc, Line.lc, h.capRing]
theorem Line.Steady.playBase {L M : Line} (h : L.Steady M) : M.playBase = L.playBase := by rw [Line.playBase, Line.playBase, h.playRing]
theorem Line.Steady.capBase {L M : Line} (h : L.Steady M) : M.capBase = L.capBase := by rw [Line.capBase, Line.capBase, h.capRing]

/-- The records stay where the store keeps the capture rings and the line its indices. -/
theorem Line.RecordsIn.of_same {L M : Line} {st st' : Store} (h : L.RecordsIn st) (hbase : M.capBase = L.capBase) (hlc : M.lc = L.lc)
    (hread : M.capRead = L.capRead) (hunread : M.unread = L.unread) (hpos : L.unread ≤ L.lc)
    (hst : ∀ j, j < L.lc → st'.read (L.capBase + j) = st.read (L.capBase + j)) : M.RecordsIn st' := by
  intro k hk
  rw [hunread] at hk
  rw [hbase, hlc, hread, hst _ (Nat.mod_lt _ (by omega))]
  exact h k hk

/-- A store puts a record in the place after the unread ones, or in that of the oldest, which is given up (R95, R96). -/
theorem Line.RecordsIn.stored {L : Line} {st : Store} (h : L.RecordsIn st) (hw : st.wf = true) (he : L.enabled = true) (hr : L.RingLaw)
    (hi : L.IndexLaw) (programs : List ProgramRecord) (ended : Word32) (d : Due) :
    Line.RecordsIn (st.write L.writePlace (L.captureRecord programs ended)) { L.stored with due := d } := by
  obtain ⟨-, hlen, hread, hwrite⟩ := hi he
  obtain ⟨-, -, -, h4, -, hfit⟩ := hr.lengths he
  have hplace : L.writePlace < 1024 := by
    have := Nat.mod_lt (L.capRead + L.unread) (show 0 < L.lc by omega)
    rw [Line.writePlace, hwrite]
    omega
  have hat (n : Nat) (hn : n < L.unread ∨ n = L.unread) : ∃ info,
      ((st.write L.writePlace (L.captureRecord programs ended)).read (L.capBase + (L.capRead + n) % L.lc)).info = .capture info := by
    rw [Store.read_write _ _ hw hplace]
    split
    · exact ⟨_, rfl⟩
    next hne =>
      obtain hn | hn := hn
      · exact h n hn
      · rw [hn, Line.writePlace, hwrite] at hne
        exact absurd rfl hne
  intro k hk
  unfold Line.stored at hk ⊢
  split at hk
  next hroom =>
    rw [if_pos hroom]
    exact hat k (by
      have hk : k < L.unread + 1 := hk
      omega)
  next hfull =>
    rw [if_neg hfull]
    have hk : k < L.unread := hk
    show ∃ info, (Store.read _ (L.capBase + ((L.capRead + 1) % L.lc + k) % L.lc)).info = .capture info
    rw [Nat.mod_add_mod, Nat.add_assoc]
    exact hat (1 + k) (by omega)

end RecordsIn

theorem recordLaw_of_move {c : Instr} {s t : State} (h : Move c s t) (hw : s.StoreLaw) (hp : s.PartitionLaw)
    (hi : s.EachLine Line.IndexLaw) (hs : s.RecordLaw) : t.RecordLaw := by
  have hsame {st : Store} (k : Fin 4) (he : (s.line k).enabled = true) {M : Line} (hbase : M.capBase = (s.line k).capBase)
      (hlc : M.lc = (s.line k).lc) (hread : M.capRead = (s.line k).capRead) (hunread : M.unread = (s.line k).unread)
      (hst : ∀ j, j < (s.line k).lc → st.read ((s.line k).capBase + j) = s.store.read ((s.line k).capBase + j)) : M.RecordsIn st :=
    Line.RecordsIn.of_same (hs k he) hbase hlc hread hunread (hi k he).2.1 hst
  have hset {u : State} {l : Fin 4} {L : Line} (hu : u.lines = s.lines) (hL : L.enabled = true → L.RecordsIn u.store)
      (hst : ∀ k, k ≠ l → (s.line k).enabled = true → ∀ j, j < (s.line k).lc →
        u.store.read ((s.line k).capBase + j) = s.store.read ((s.line k).capBase + j)) : (u.setLine l L).RecordLaw := by
    intro k he
    rw [State.line_setLine] at he ⊢
    split at he
    next hk =>
      rw [if_pos hk]
      exact hL he
    next hk =>
      rw [if_neg hk]
      rw [State.line_of_lines hu] at he ⊢
      exact hsame k he rfl rfl rfl rfl (hst k hk he)
  obtain ⟨hst, hsteady⟩ | ⟨_, _, _, rfl⟩ | ⟨w, l, rfl⟩ | ⟨l, p, q, hchecks, rfl⟩ | ⟨l, -, rfl⟩ | ⟨l, rfl⟩ | ⟨l, he, rfl⟩ | ⟨l, r, hr, rfl⟩ |
    ⟨l, hd, rfl⟩ | ⟨l, hd, rfl⟩ := h.steady_or
  · intro k he
    rw [(hsteady k).enabled] at he
    exact hsame k he (hsteady k).capBase (hsteady k).lc (hsteady k).capRead (hsteady k).unread fun j _ => by rw [hst]
  · intro k he
    rw [State.line_afterReset] at he
    cases he
  · have hout := Store.agreeOutside_lineWrite (L := s.line l) hw
      (fun he => by have := ((hp.1 l).lengths he).1; omega) w
    refine hset (u := s.setStore ((s.line l).write w s.store).2.1) (l := l) rfl (fun he => ?_) fun k _ _ j hj => hp.cap_outside hout hj
    obtain ⟨_, _, _, _, _, hl⟩ := (s.line l).write_frame w s.store
    rw [hl] at he ⊢
    exact hsame l he rfl rfl rfl rfl fun j hj => hp.cap_outside hout hj
  · obtain ⟨hoff, -⟩ := configureChecks_passed hchecks
    refine hset rfl (fun he => ?_) fun _ _ _ _ _ => rfl
    unfold Line.withRings at he
    split at he <;> exact absurd (hoff.symm.trans he) Bool.noConfusion
  · exact hset (u := s.setStore _) rfl (fun _ k hk => nomatch hk) fun k _ _ j hj =>
      hp.cap_outside (Store.agreeOutside_emptyRing hw) hj
  · exact hset (u := s.setStore _) rfl (fun he => nomatch he) fun k _ _ j hj =>
      hp.cap_outside (Store.agreeOutside_emptyRing hw) hj
  · exact hset (u := s.setStore _) rfl
      (fun _ => hsame l he rfl rfl rfl rfl fun j hj => hp.cap_outside (Store.agreeOutside_emptyRing hw) hj)
      fun k _ _ j hj => hp.cap_outside (Store.agreeOutside_emptyRing hw) hj
  · refine hset rfl (fun he k hk => ?_) fun _ _ _ _ _ => rfl
    obtain ⟨info, hinfo⟩ := hs l he (r + k) (by
      have hk : k < (s.line l).unread - r := hk
      omega)
    refine ⟨info, ?_⟩
    show (s.store.read ((s.line l).capBase + (((s.line l).capRead + r) % (s.line l).lc + k) % (s.line l).lc)).info = _
    rw [Nat.mod_add_mod, Nat.add_assoc]
    exact hinfo
  · have he : (s.line l).enabled = true := by
      simp only [Line.captureDue, Bool.and_eq_true] at hd
      exact hd.1.1
    refine hset (u := s.setStore _) rfl (fun _ => Line.RecordsIn.stored (hs l he) hw he (hp.1 l) (hi l) _ _ _) fun k hk he' j hj => ?_
    obtain ⟨-, -, -, h4, -, -⟩ := (hp.1 l).lengths he
    refine Store.read_write_ne _ hw ?_
    rw [Line.writePlace, (hi l he).2.2.2]
    exact hp.cap_ne_cap hk hj (Nat.mod_lt _ (by omega))
  · have he : (s.line l).enabled = true := by
      simp only [Line.loadDue, Bool.and_eq_true] at hd
      exact hd.1.1
    have hout : Store.AgreeOutside (s.line l) s.store (s.store.write (s.line l).slotCell .reset) :=
      Store.AgreeOutside.refl.write hw (hi l he).1 _
    refine hset (u := s.setStore _) rfl (fun _ => ?_) fun k _ _ j hj => hp.cap_outside hout hj
    have ht := (s.line l).loadCell_timeline (s.loadInput l)
    obtain ⟨-, hu, hr, -⟩ := (s.line l).loadCell_threshold (s.loadInput l)
    exact hsame l he (by rw [Line.capBase, ht.capRing]; rfl) (by rw [Line.lc, ht.capRing]; rfl) hr hu fun j hj =>
      hp.cap_outside hout hj

/-- Settles O52: the indices line by line, the records with the partition and the indices. -/
theorem ringIndicesKept : Obligations.RingIndicesKept :=
  ⟨Kept.and_eachLine Line.indexLaw_keeps,
    kept_of_move (fun _ _ h => h) fun hm ⟨hw, hp, hi, hr⟩ =>
      ⟨storeLaw_of_move hm hw, partitionLaw_of_move hm hp, fun l => (Line.indexLaw_keeps.eachLine hm (fun l => ⟨hp.1 l, hi l⟩) l).2,
        recordLaw_of_move hm hw hp hi hr⟩⟩

/-! ### A line in IDLE (R34, R71) -/

/-- No anchor stands, and every slot of the ring is EMPTY. -/
def Line.BareIn (st : Store) (L : Line) : Prop :=
  (∀ m, L.anchors.get m = .unanchored) ∧ ∀ i, i < L.lp → st.read (L.playBase + i) = StoreCell.reset

theorem Line.bareIn_emptyRing {L M : Line} {st : Store} (hw : st.wf = true) (hr : L.RingLaw) (hs : L.playRing.isSome = true)
    (hp : M.playRing = L.playRing) (ha : M.anchors = Four.all .unanchored) : M.BareIn (st.emptyRing L) := by
  refine ⟨fun m => by rw [ha, Four.get_all], fun i hi => ?_⟩
  obtain ⟨e, he⟩ := Option.isSome_iff_exists.mp hs
  obtain ⟨-, -, hfit⟩ := hr.2.2.1 e he
  have hlp : L.lp = e.len := by rw [Line.lp, he]; rfl
  have hbase : L.playBase = e.base := by rw [Line.playBase, he]; rfl
  rw [show M.lp = L.lp by rw [Line.lp, Line.lp, hp]] at hi
  rw [show M.playBase = L.playBase by rw [Line.playBase, Line.playBase, hp], Store.emptyRing,
    Store.read_emptyCells _ _ hw _ (by omega), if_pos (by omega)]

/-- A load leaves a line in IDLE in IDLE alone, and its anchors with it. -/
theorem Line.loadCell_idle {L : Line} {i : LoadInput} (h : (L.loadCell i).1.playout = .idle) :
    L.playout = .idle ∧ (L.loadCell i).1.anchors = L.anchors := by
  obtain ⟨hp, ha⟩ : (L.loadCell i).1.playout = (L.stageMode.1.stageContent i.slot).playout ∧
      (L.loadCell i).1.anchors = (L.stageMode.1.stageContent i.slot).anchors := by
    unfold Line.loadCell
    dsimp only
    generalize Line.finalCell _ i _ = cell
    generalize Line.carriesOutput _ = output
    obtain ⟨_, _, _, _, _, _, _, _, _, hr, -⟩ := (L.stageMode.1.stageContent i.slot).stageRender_calls i
    generalize ((L.stageMode.1.stageContent i.slot).stageRender i).1 = R at hr ⊢
    obtain ⟨_, _, _, hs⟩ := R.stageSlip_frame output cell
    obtain ⟨_, _, hf⟩ := (R.stageSlip output cell).stageFeed_frame cell
    obtain ⟨_, _, hw⟩ := (Line.stageLoad ((R.stageSlip output cell).stageFeed cell).1 cell (R.slipOfCell output cell)).stageWindow_frame
    rw [hw, hf, hs, hr]
    unfold Line.touchMark Line.stageLoad Line.setHalf
    split <;> exact ⟨rfl, rfl⟩
  obtain ⟨_, _, _, _, _, _, _, _, hm, -⟩ := L.stageMode_calls
  rw [hp] at h
  rw [ha]
  rw [hm] at h ⊢
  unfold Line.stageContent at h ⊢
  split at h
  next hfilled =>
    rw [if_pos hfilled]
    unfold Line.filledLoaded at h ⊢
    dsimp only at h
    split at h
    · cases h
    · exact ⟨h, rfl⟩
  next hfilled =>
    rw [if_neg hfilled]
    unfold Line.emptyLoaded at h ⊢
    dsimp only at h ⊢
    split at h
    · cases h
    next hn =>
      rw [if_neg hn]
      exact ⟨h, rfl⟩

/-- A write leaves no ENABLED line in IDLE: it anchors its source, unless one stands already (R32, R34). -/
theorem Line.write_not_idle {L : Line} (w : Write) (st : Store) (he : L.enabled = true)
    (hbare : L.playout = .idle → ∀ m, L.anchors.get m = .unanchored) : (L.write w st).1.playout ≠ .idle := by
  have hsettled : (L.settledAnchor w).playout ≠ .idle := by
    unfold Line.settledAnchor
    split
    · unfold Line.anchored
      dsimp only
      split
      · exact fun h => nomatch h
      · assumption
    next ha =>
      intro hidle
      rw [Line.anchorsAt, hbare hidle] at ha
      exact ha rfl
  unfold Line.write
  rw [if_pos he]
  dsimp only
  split <;> exact hsettled

theorem idleLaw_of_move {c : Instr} {s t : State} (h : Move c s t) (hw : s.StoreLaw) (hp : s.PartitionLaw)
    (hi : s.EachLine Line.IndexLaw) (hs : s.IdleLaw) : t.IdleLaw := by
  have hset {u : State} {l : Fin 4} {L : Line} (hu : u.lines = s.lines)
      (hL : L.enabled = true → L.playout = .idle → L.BareIn u.store)
      (hst : ∀ k, k ≠ l → (s.line k).enabled = true → ∀ j, j < (s.line k).lp →
        u.store.read ((s.line k).playBase + j) = s.store.read ((s.line k).playBase + j)) : (u.setLine l L).IdleLaw := by
    intro k he hidle
    rw [State.line_setLine] at he hidle ⊢
    split at he
    next hk =>
      rw [if_pos hk] at hidle ⊢
      exact hL he hidle
    next hk =>
      rw [if_neg hk] at hidle ⊢
      rw [State.line_of_lines hu] at he hidle ⊢
      obtain ⟨ha, hb⟩ := hs k he hidle
      exact ⟨ha, fun i hi => (hst k hk he i hi).trans (hb i hi)⟩
  obtain ⟨hst, hsteady⟩ | ⟨_, _, _, rfl⟩ | ⟨w, l, rfl⟩ | ⟨l, p, q, hchecks, rfl⟩ | ⟨l, hsome, rfl⟩ | ⟨l, rfl⟩ | ⟨l, he, rfl⟩ |
    ⟨l, r, hr, rfl⟩ | ⟨l, hd, rfl⟩ | ⟨l, hd, rfl⟩ := h.steady_or
  · intro k he hidle
    rw [(hsteady k).enabled] at he
    rw [(hsteady k).playout] at hidle
    rw [(hsteady k).anchors, (hsteady k).lp, (hsteady k).playBase, hst]
    exact hs k he hidle
  · intro k he
    rw [State.line_afterReset] at he
    cases he
  · have hout := Store.agreeOutside_lineWrite (L := s.line l) hw
      (fun he => by have := ((hp.1 l).lengths he).1; omega) w
    refine hset (u := s.setStore ((s.line l).write w s.store).2.1) (l := l) rfl (fun he hidle => ?_) fun k hk _ j hj => hp.play_outside hk hout hj
    have hon : (s.line l).enabled = true := by
      obtain ⟨_, _, _, _, _, hl⟩ := (s.line l).write_frame w s.store
      rw [hl] at he
      exact he
    exact absurd hidle (Line.write_not_idle w s.store hon fun h => (hs l hon h).1)
  · obtain ⟨hoff, -⟩ := configureChecks_passed hchecks
    refine hset rfl (fun he => ?_) fun _ _ _ _ _ => rfl
    unfold Line.withRings at he
    split at he <;> exact absurd (hoff.symm.trans he) Bool.noConfusion
  · exact hset (u := s.setStore _) rfl (fun _ _ => Line.bareIn_emptyRing hw (hp.1 l) hsome rfl rfl) fun k hk _ j hj =>
      hp.play_outside hk (Store.agreeOutside_emptyRing hw) hj
  · exact hset (u := s.setStore _) rfl (fun he => nomatch he) fun k hk _ j hj =>
      hp.play_outside hk (Store.agreeOutside_emptyRing hw) hj
  · exact hset (u := s.setStore _) rfl (fun _ _ => Line.bareIn_emptyRing hw (hp.1 l) ((hp.1 l).2.1 he) rfl rfl) fun k hk _ j hj =>
      hp.play_outside hk (Store.agreeOutside_emptyRing hw) hj
  · exact hset rfl (hs l) fun _ _ _ _ _ => rfl
  · have he : (s.line l).enabled = true := by
      simp only [Line.captureDue, Bool.and_eq_true] at hd
      exact hd.1.1
    obtain ⟨-, -, -, h4, -, -⟩ := (hp.1 l).lengths he
    have hother (k : Fin 4) (j : Nat) (hj : j < (s.line k).lp) :
        (s.store.write (s.line l).writePlace ((s.line l).captureRecord s.programs s.endedCell)).read ((s.line k).playBase + j) =
          s.store.read ((s.line k).playBase + j) := by
      refine Store.read_write_ne _ hw ?_
      rw [Line.writePlace, (hi l he).2.2.2]
      exact hp.play_ne_cap k l hj (Nat.mod_lt _ (by omega))
    refine hset (u := s.setStore _) rfl (fun he hidle => ?_) fun k _ _ => hother k
    obtain ⟨_, _, _, _, hst⟩ := (s.line l).stored_frame
    rw [hst] at he hidle ⊢
    obtain ⟨ha, hb⟩ := hs l he hidle
    exact ⟨ha, fun i hi => (hother l i hi).trans (hb i hi)⟩
  · have he : (s.line l).enabled = true := by
      simp only [Line.loadDue, Bool.and_eq_true] at hd
      exact hd.1.1
    have hout : Store.AgreeOutside (s.line l) s.store (s.store.write (s.line l).slotCell .reset) :=
      Store.AgreeOutside.refl.write hw (hi l he).1 _
    refine hset (u := s.setStore _) rfl (fun _ hidle => ?_) fun k hk _ j hj => hp.play_outside hk hout hj
    have ht := (s.line l).loadCell_timeline (s.loadInput l)
    obtain ⟨hwas, hanchors⟩ := Line.loadCell_idle hidle
    obtain ⟨ha, hb⟩ := hs l he hwas
    refine ⟨fun m => by rw [hanchors]; exact ha m, fun i hi => ?_⟩
    have hlp : ((s.line l).loadCell (s.loadInput l)).1.lp = (s.line l).lp := by rw [Line.lp, ht.playRing]; rfl
    have hbase : ((s.line l).loadCell (s.loadInput l)).1.playBase = (s.line l).playBase := by rw [Line.playBase, ht.playRing]; rfl
    rw [hlp] at hi
    rw [hbase]
    show (s.store.write (s.line l).slotCell .reset).read ((s.line l).playBase + i) = .reset
    by_cases hat : (s.line l).playBase + i = (s.line l).slotCell
    · obtain ⟨-, -, hfit, -, -, -⟩ := (hp.1 l).lengths he
      rw [Store.read_write _ _ hw (by rw [← hat]; omega), if_pos hat]
    · rw [Store.read_write_ne _ hw hat]
      exact hb i hi

/-- Settles O50: nothing leaves a line in IDLE with an anchor or a FILLED slot. -/
theorem idleLineIsEmpty : Obligations.IdleLineIsEmpty :=
  kept_of_move (fun _ _ h => h) fun hm ⟨hw, hp, hi, hs⟩ =>
    ⟨storeLaw_of_move hm hw, partitionLaw_of_move hm hp, fun l => (Line.indexLaw_keeps.eachLine hm (fun l => ⟨hp.1 l, hi l⟩) l).2,
      idleLaw_of_move hm hw hp hi hs⟩

/-! ### The state after reset -/

theorem State.line_reset (l : Fin 4) : State.reset.line l = Line.reset := Four.get_all _ _

/-- A law that a line after reset obeys holds of every line after reset. -/
theorem State.eachLine_reset {P : Line → Prop} (h : P Line.reset) : State.reset.EachLine P := fun l => by
  rw [State.line_reset]
  exact h

/-- Settles O47: each law at the state after reset. -/
theorem resetObeysLaws : Obligations.ResetObeysLaws :=
  ⟨rfl, fun _ => StoreCell.slotLaw_reset,
    ⟨State.eachLine_reset Line.ringLaw_keeps.reset, fun l => by rw [State.line_reset]; exact apart_none_left _, fun l k _ => by
      rw [State.line_reset, State.line_reset]
      exact ⟨apart_none_left _, apart_none_left _, apart_none_left _⟩⟩,
    State.eachLine_reset Line.disabledLaw_keeps.reset, State.eachLine_reset Line.contextLaw_keeps.keeps.reset,
    State.eachLine_reset Line.ringTripLaw_keeps.reset, State.eachLine_reset Line.slipLaw_keeps.reset,
    State.eachLine_reset Line.indexLaw_keeps.reset.2, ⟨fun _ h => (nomatch h), Nat.zero_le _, fun h => nomatch h⟩, fun _ h => (nomatch h),
    toneLaw_reset, programLaw_reset, sampleLaw_reset, (fun l he => by rw [State.line_reset] at he; cases he),
    State.eachLine_reset Line.statsLaw_keeps.reset, State.eachLine_reset Line.fskLaw_keeps.keeps.reset,
    State.eachLine_reset Line.ringLaw_keeps.reset, (fun l he => by rw [State.line_reset] at he; cases he),
    State.eachLine_reset Line.cidLaw_keeps.reset.2, State.eachLine_reset Line.depthLaw_keeps.reset.2⟩

end Sys2Proof.Machine
end

section
/-! What no command does: every command answers and keeps the queue, nothing takes place while RESET is low, a request reaches its own link alone, the
horizon advances by loads, and single pieces of state change by their own requests (R1, R24, R67, R69, R109, R167, R181). -/

namespace Sys2Proof.Machine

/-! ### Requests that are heard -/

section Heard

variable {s : State} {l : Fin 4} {line : Byte}

theorem State.Hears.takeControl (h : s.Hears .control) (f : State → State) : s.takeControl f = .next (f s) :=
  State.takeControl_heard h.1 h.2.1

theorem State.Hears.takeMedia (h : s.Hears .media) (f : State → State) : s.takeMedia f = .next (f s) :=
  State.takeMedia_heard h.1 h.2.1 (h.2.2 rfl)

theorem State.Hears.takeOn {k : Link} (h : s.Hears k) (f : State → State) : s.takeOn k f = .next (f s) := by
  cases k
  · exact h.takeControl f
  · exact h.takeMedia f

theorem State.Names.takeControl (h : s.Names .control line l) (f : State → Fin 4 → State) :
    (s.takeControl fun s => s.withLine .control line (f s)) = .next (f s l) := by
  rw [h.1.takeControl, State.withLine_of_eq h.2]

theorem State.Names.takeMedia (h : s.Names .media line l) (f : State → Fin 4 → State) :
    (s.takeMedia fun s => s.withLine .media line (f s)) = .next (f s l) := by
  rw [h.1.takeMedia, State.withLine_of_eq h.2]

theorem State.Hears.noLine_control (h : s.Hears .control) (hl : 4 ≤ line.toNat) (f : State → Fin 4 → State) :
    (s.takeControl fun s => s.withLine .control line (f s)) = .next (s.refuse .control .range) := by
  rw [h.takeControl, State.withLine_of_ge hl]

theorem State.Hears.noLine_media (h : s.Hears .media) (hl : 4 ≤ line.toNat) (f : State → Fin 4 → State) :
    (s.takeMedia fun s => s.withLine .media line (f s)) = .next (s.refuse .media .range) := by
  rw [h.takeMedia, State.withLine_of_ge hl]

end Heard

/-! ### Every command answers -/

/-- Settles O1. -/
theorem stepTakesFrontCommand : Obligations.StepTakesFrontCommand := ⟨fun _ _ _ h => step_cons h, fun _ h => step_nil h⟩

theorem exec_answers (c : Instr) (s : State) : ∃ t, exec c s = .next t := by
  cases c with
  | commitDeposit n =>
    show ∃ t, execCommitDeposit s n = .next t
    unfold execCommitDeposit
    split <;> exact ⟨_, rfl⟩
  | fillCells mask source time control gain n =>
    show ∃ t, execFillCells mask source time control gain s n = .next t
    unfold execFillCells
    split <;> exact ⟨_, rfl⟩
  | lineStatus k | readLinkStatus k | clearLinkStatus k | setIrqMode k => cases k <;> exact ⟨_, rfl⟩
  | unknownCode k code =>
    show ∃ t, execUnknownCode k code s = .next t
    unfold execUnknownCode
    split
    · exact ⟨_, rfl⟩
    · cases k <;> exact ⟨_, rfl⟩
  | truncatedFrame k code =>
    show ∃ t, execTruncatedFrame k code s = .next t
    unfold execTruncatedFrame
    split
    · cases k <;> exact ⟨_, rfl⟩
    · exact ⟨_, rfl⟩
  | _ => exact ⟨_, rfl⟩

theorem State.next_low {s t : State} (h : s.resetLow = true) :
    (.next (if s.resetLow then s else t) : Host.Outcome State Fault Refusal) = .next s :=
  congrArg Host.Outcome.next (if_pos h)

theorem State.takeOn_low {s : State} {k : Link} {f : State → State} (h : s.resetLow = true) : s.takeOn k f = .next s := by
  cases k <;> exact State.next_low h

/-- While RESET is low nothing takes place (R1). -/
theorem exec_low {c : Instr} {s : State} (hl : s.resetLow = true) (hc : NoReset c) : exec c s = .next s := by
  cases c with
  | deviceReset => exact absurd rfl (hc _ _ _)
  | commitDeposit n =>
    show execCommitDeposit s n = .next s
    unfold execCommitDeposit
    split <;> exact State.next_low hl
  | fillCells mask source time control gain n =>
    show execFillCells mask source time control gain s n = .next s
    unfold execFillCells
    split <;> exact State.next_low hl
  | lineStatus k | readLinkStatus k | clearLinkStatus k | setIrqMode k => exact State.takeOn_low hl
  | unknownCode k code =>
    show execUnknownCode k code s = .next s
    unfold execUnknownCode
    split
    · rfl
    · exact State.takeOn_low hl
  | truncatedFrame k code =>
    show execTruncatedFrame k code s = .next s
    unfold execTruncatedFrame
    split
    · exact State.takeOn_low hl
    · rfl
  | _ => exact State.next_low hl

theorem Move.pending {c : Instr} {s t : State} (h : Move c s t) : t.pending = s.pending := by
  cases h with
  | link k => cases k <;> rfl
  | tones start fields =>
    obtain ⟨_, _, _, ht⟩ := s.writeFields_eq start fields
    rw [ht]
  | _ => rfl

theorem exec_pending {c : Instr} {s t : State} (h : exec c s = .next t) : t.pending = s.pending :=
  (exec_moves h).keeps (P := fun u => u.pending = s.pending) (fun hm hs => hm.pending.trans hs) rfl

/-- Settles O2. -/
theorem everyCommandAnswers : Obligations.EveryCommandAnswers := by
  refine ⟨fun c s => ?_, fun c s hl hc => exec_low hl hc⟩
  obtain ⟨t, ht⟩ := exec_answers c s
  exact ⟨t, ht, exec_pending ht⟩

/-! ### A line number above 3 -/

/-- Settles O7: each request by the rule for a line argument that names no line. -/
theorem lineAboveThreeRefused : Obligations.LineAboveThreeRefused := by
  intro s line hc hm hl
  refine ⟨fun _ _ _ _ => hc.noLine_control hl _, hc.noLine_control hl _, hc.noLine_control hl _, fun _ => hc.noLine_control hl _,
    fun _ _ => hc.noLine_control hl _, fun _ _ => hc.noLine_control hl _, fun _ => hc.noLine_control hl _,
    fun type length payload hwf => ?_, fun _ => hc.noLine_control hl _, fun _ _ _ _ _ => hc.noLine_control hl _,
    hc.noLine_control hl _, fun v => ?_, fun slip control => ?_, fun slip control => ?_, fun maximum => ?_, ?_, fun k => ?_⟩
  · show execLoadCid line type length payload s = _
    unfold execLoadCid
    rw [hc.takeControl]
    have hwf : counted (cidLengthOk length) length.toNat payload = true := hwf
    unfold counted at hwf
    split at hwf
    next hlen =>
      have hlen' : ¬payload.length < length.toNat := by rw [beq_iff_eq.mp hwf]; exact Nat.lt_irrefl _
      rw [hlen, if_neg (by decide), if_neg hlen', State.withLine_of_ge hl]
    next hlen => rw [Bool.eq_false_iff.mpr hlen, if_pos (show (!false) = true from rfl)]
  · show execSetPlayout line v s = _
    exact hm.noLine_media hl _
  · show execRealign line slip control s = _
    exact hm.noLine_media hl _
  · show execRealignWithClear line slip control s = _
    exact hm.noLine_media hl _
  · show execCaptureRead line maximum s = _
    exact hm.noLine_media hl _
  · show execReadAndClearStatistics line s = _
    exact hm.noLine_media hl _
  · show execLineStatus k line s = _
    unfold execLineStatus State.takeOn
    cases k
    · exact hc.noLine_control hl _
    · exact hm.noLine_media hl _

/-! ### A request reaches its own link -/

/-- A command that is no Control Link request reaches neither that link nor the Event Queue. -/
theorem Move.keeps_control {c : Instr} {s t : State} (h : Move c s t) (hc : ¬Instr.Reaches c .control) :
    t.cLink = s.cLink ∧ t.events = s.events := by
  cases h with
  | reset low cFrame mFrame hr => exact absurd (.inl (by rw [hr]; rfl)) hc
  | link k x hk =>
    cases k
    · exact absurd hk hc
    · exact ⟨rfl, rfl⟩
  | readEvents r hr => exact absurd hr hc
  | arrive r hr => exact absurd hr hc
  | tones start fields =>
    obtain ⟨_, _, _, ht⟩ := s.writeFields_eq start fields
    rw [ht]
    exact ⟨rfl, rfl⟩
  | _ => exact ⟨rfl, rfl⟩

/-- A command that is no Media Link request reaches neither that link, nor SEQUENCE, nor the deposit buffer, nor a write under way. -/
theorem Move.keeps_media {c : Instr} {s t : State} (h : Move c s t) (hc : ¬Instr.Reaches c .media) :
    t.mLink = s.mLink ∧ t.sequence = s.sequence ∧ t.deposit = s.deposit ∧ t.job = s.job := by
  cases h with
  | reset low cFrame mFrame hr => exact absurd (.inl (by rw [hr]; rfl)) hc
  | link k x hk =>
    cases k
    · exact ⟨rfl, rfl, rfl, rfl⟩
    · exact absurd hk hc
  | sequence b hr => exact absurd hr hc
  | deposit d hr => exact absurd hr hc
  | beginWrites w ls hr => exact absurd hr hc
  | writeLine j l hr => exact absurd hr hc
  | goOn j left report hr => exact absurd hr hc
  | finish hr => exact absurd hr hc
  | tones start fields =>
    obtain ⟨_, _, _, ht⟩ := s.writeFields_eq start fields
    rw [ht]
    exact ⟨rfl, rfl, rfl, rfl⟩
  | _ => exact ⟨rfl, rfl, rfl, rfl⟩

theorem exec_keeps_control {c : Instr} {s t : State} (h : exec c s = .next t) (hc : Instr.link c = some .media) :
    t.cLink = s.cLink ∧ t.events = s.events := by
  have hr : ¬Instr.Reaches c .control := by
    unfold Instr.Reaches
    rw [hc]
    decide
  exact (exec_moves h).keeps (P := fun u => u.cLink = s.cLink ∧ u.events = s.events)
    (fun hm hs => ⟨(hm.keeps_control hr).1.trans hs.1, (hm.keeps_control hr).2.trans hs.2⟩) ⟨rfl, rfl⟩

theorem exec_keeps_media {c : Instr} {s t : State} (h : exec c s = .next t) (hc : Instr.link c = some .control) :
    t.mLink = s.mLink ∧ t.sequence = s.sequence ∧ t.deposit = s.deposit ∧ t.job = s.job := by
  have hr : ¬Instr.Reaches c .media := by
    unfold Instr.Reaches
    rw [hc]
    decide
  refine (exec_moves h).keeps
    (P := fun u => u.mLink = s.mLink ∧ u.sequence = s.sequence ∧ u.deposit = s.deposit ∧ u.job = s.job) (fun hm hs => ?_)
    ⟨rfl, rfl, rfl, rfl⟩
  obtain ⟨h1, h2, h3, h4⟩ := hm.keeps_media hr
  exact ⟨h1.trans hs.1, h2.trans hs.2.1, h3.trans hs.2.2.1, h4.trans hs.2.2.2⟩

/-- Settles O59: no move of a request reaches what belongs to the other link. -/
theorem requestsKeepOtherLink : Obligations.RequestsKeepOtherLink := by
  refine ⟨fun c s t hc h => exec_keeps_control h ?_, fun c s t bytes h => ⟨fun hf => ?_, fun hf => ?_⟩⟩
  · obtain ⟨n, rfl⟩ | ⟨_, _, _, _, _, _, rfl⟩ := hc <;> rfl
  · exact exec_keeps_control h (Instr.link_of_frameOf hf)
  · exact exec_keeps_media h (Instr.link_of_frameOf hf)

/-! ### The horizon (R10, R24) -/

/-- From `L` to `M` the horizon and hs stand still, or one load advances them, and no load has become due. -/
def Line.Forward (L M : Line) : Prop :=
  M.lp = L.lp ∧
    (M.horizon = L.horizon ∧ M.hs = L.hs ∧ (M.due.load = true → L.due.load = true) ∨
      L.due.load = true ∧ M.horizon = L.horizon + 40 ∧ M.hs = (L.hs + 1) % L.lp ∧ M.due.load = false)

theorem Line.Forward.refl (L : Line) : Line.Forward L L := ⟨rfl, .inl ⟨rfl, rfl, id⟩⟩

/-- Nothing of what a horizon's advance is about changes. -/
theorem Line.Forward.of_same {L M : Line} (h1 : M.playRing = L.playRing) (h2 : M.horizon = L.horizon) (h3 : M.hs = L.hs)
    (h4 : M.due.load = L.due.load) : Line.Forward L M :=
  ⟨by rw [Line.lp, Line.lp, h1], .inl ⟨h2, h3, fun h => h4 ▸ h⟩⟩

theorem Line.Forward.trans {L M N : Line} (h : Line.Forward L M) (g : Line.Forward M N) : Line.Forward L N := by
  obtain ⟨hlp, h⟩ := h
  obtain ⟨glp, g⟩ := g
  refine ⟨glp.trans hlp, ?_⟩
  obtain ⟨h1, h2, h3⟩ | ⟨h1, h2, h3, h4⟩ := h
  · obtain ⟨g1, g2, g3⟩ | ⟨g1, g2, g3, g4⟩ := g
    · exact .inl ⟨g1.trans h1, g2.trans h2, h3 ∘ g3⟩
    · exact .inr ⟨h3 g1, by rw [g2, h1], by rw [g3, h2, hlp], g4⟩
  · obtain ⟨g1, g2, g3⟩ | ⟨g1, -⟩ := g
    · refine .inr ⟨h1, g1.trans h2, g2.trans h3, Bool.eq_false_iff.mpr fun hd => ?_⟩
      rw [g3 hd] at h4
      cases h4
    · rw [g1] at h4
      cases h4

theorem Line.loadDue_due {L : Line} (h : L.loadDue = true) : L.due.load = true := by
  simp only [Line.loadDue, Bool.and_eq_true] at h
  exact h.2

theorem Line.loadCell_forward {L : Line} (i : LoadInput) (h : L.loadDue = true) : Line.Forward L (L.loadCell i).1 := by
  have ht := L.loadCell_timeline i
  obtain ⟨_, _, _, _, _, _, _, _, _, _, _, _, _, _, _, _, _, _, _, hl, -⟩ := L.loadCell_frame i
  refine ⟨by rw [Line.lp, ht.playRing]; rfl, .inr ⟨L.loadDue_due h, ht.horizon, ht.hs, by rw [hl]⟩⟩

theorem Line.Move.forward {c : Instr} {programs : List ProgramRecord} {L M : Line} (h : Line.Move c programs L M) : Line.Forward L M := by
  obtain ⟨_, _, _, _, _, _, _, _, _, _, _, _, _, _, rfl⟩ | ⟨v, rfl⟩ | ⟨slip, rfl⟩ | ⟨r, -, rfl⟩ | rfl | ⟨-, rfl⟩ := h.served_or <;>
    exact .of_same rfl rfl rfl rfl

theorem Line.stored_forward (L : Line) : Line.Forward L { L.stored with due := { L.due with capture := false } } := by
  obtain ⟨_, _, _, _, h⟩ := L.stored_frame
  rw [h]
  exact .of_same rfl rfl rfl rfl

/-- What a chain of moves with no frame in it has done to line `l` since `s`: it is ENABLED still and its horizon has stood, or advanced by a load that
the command may take; or the command is a DISABLE LINE and the line is DISABLED. -/
def State.ForwardAt (c : Instr) (s : State) (l : Fin 4) (u : State) : Prop :=
  (u.line l).enabled = true ∧ Line.Forward (s.line l) (u.line l) ∧
      ((u.line l).horizon = (s.line l).horizon ∧ (u.line l).hs = (s.line l).hs ∨ Instr.Loads c l) ∨
    (u.line l).enabled = false ∧ ∃ line, c = .disableLine line

theorem forwardAt_of_move {c : Instr} {s u v : State} {l : Fin 4} (hreset : NoReset c) (hframe : ∀ hrx hook, c ≠ .highwayFrame hrx hook)
    (h : Move c u v) (hu : s.ForwardAt c l u) : s.ForwardAt c l v := by
  have hsame {w : State} (hw : w.line l = u.line l) : s.ForwardAt c l w := by
    unfold State.ForwardAt
    rw [hw]
    exact hu
  have hpass {w : State} {N : Line} (hw : w.line l = N) (he : N.enabled = (u.line l).enabled) (hf : N.playRing = (u.line l).playRing)
      (hh : N.horizon = (u.line l).horizon) (hs : N.hs = (u.line l).hs) (hd : N.due.load = (u.line l).due.load) : s.ForwardAt c l w := by
    unfold State.ForwardAt
    rw [hw, he, hh, hs]
    obtain ⟨h1, h2, h3⟩ | h := hu
    · exact .inl ⟨h1, h2.trans (.of_same hf hh hs hd), h3⟩
    · exact .inr h
  have hset {w : State} {k : Fin 4} {L : Line} (hw : w.line l = u.line l) (hL : k = l → s.ForwardAt c l (w.setLine k L)) :
      s.ForwardAt c l (w.setLine k L) := by
    by_cases hk : k = l
    · exact hL hk
    · exact hsame (by rw [State.line_setLine_ne _ _ (Ne.symm hk), hw])
  cases h with
  | reset low cFrame mFrame hc => exact absurd hc (hreset _ _ _)
  | link k => exact hsame (by simp)
  | tones start fields =>
    obtain ⟨_, _, _, ht⟩ := u.writeFields_eq start fields
    exact hsame (by rw [ht]; rfl)
  | writeLine j k =>
    refine hset (w := u) rfl fun hk => ?_
    subst hk
    obtain ⟨_, _, _, _, _, hw⟩ := (u.line k).write_frame j.write u.store
    exact hpass ((State.line_setLine_same ..).trans hw) rfl rfl rfl rfl rfl
  | configure k p q hc =>
    refine hset rfl fun hk => ?_
    subst hk
    obtain ⟨h1, -, -⟩ | ⟨-, line, rfl⟩ := hu
    · obtain ⟨hoff, -⟩ := configureChecks_passed (by assumption)
      exact absurd (hoff.symm.trans h1) Bool.noConfusion
    · obtain ⟨_, _, _, _, _, hc⟩ := hc
      cases hc
  | enable k hc he =>
    refine hset (w := u.setStore _) rfl fun hk => ?_
    subst hk
    obtain ⟨h1, -, -⟩ | ⟨-, line, rfl⟩ := hu
    · exact absurd (he.symm.trans h1) Bool.noConfusion
    · obtain ⟨_, hc⟩ := hc
      cases hc
  | disable k hc =>
    refine hset (w := u.setStore _) rfl fun hk => ?_
    subst hk
    exact .inr ⟨by rw [State.line_setLine_same]; rfl, hc⟩
  | clear k =>
    refine hset (w := u.setStore _) rfl fun hk => ?_
    subst hk
    exact hpass (State.line_setLine_same ..) rfl rfl rfl rfl rfl
  | line k L hm =>
    refine hset rfl fun hk => ?_
    subst hk
    obtain ⟨_, _, _, _, _, _, _, _, _, _, _, _, _, _, rfl⟩ | ⟨v, rfl⟩ | ⟨slip, rfl⟩ | ⟨r, -, rfl⟩ | rfl | ⟨-, rfl⟩ := hm.served_or <;>
      exact hpass (State.line_setLine_same ..) rfl rfl rfl rfl rfl
  | store k =>
    refine hset (w := u.setStore _) rfl fun hk => ?_
    subst hk
    obtain ⟨_, _, _, _, hs⟩ := (u.line k).stored_frame
    refine hpass (State.line_setLine_same ..) ?_ ?_ ?_ ?_ ?_ <;> rw [hs]
  | load k hc hd =>
    refine hset (w := u.setStore _) rfl fun hk => ?_
    subst hk
    have ht := (u.line k).loadCell_timeline (u.loadInput k)
    obtain ⟨h1, h2, -⟩ | ⟨h1, -⟩ := hu
    · unfold State.ForwardAt
      rw [State.line_setLine_same]
      exact .inl ⟨ht.enabled.trans h1, h2.trans (Line.loadCell_forward _ hd), .inr hc⟩
    · simp only [Line.loadDue, h1, Bool.false_and] at hd
      cases hd
  | boundary =>
    obtain ⟨_, _, _, _, _, _, _, _, _, _, _, hb⟩ := (u.line l).boundary_frame
    exact hpass ((State.line_boundary ..).trans hb) rfl rfl rfl rfl rfl
  | frame hrx hook hc => exact absurd hc (hframe hrx hook)
  | _ => exact hsame rfl

/-- What a frame takes of works left over advances the horizon of a line by at most one load. -/
theorem State.settle_forward (s : State) (l : Fin 4) : Line.Forward (s.line l) (s.settle.line l) := by
  have hdetector (u : State) : Line.Forward (u.line l) ((u.detectorStep l).line l) := by
    rw [State.line_detectorStep]
    split
    next h => exact (Line.Move.takeDetector (c := .startTimebase) (programs := u.programs) h.2).forward
    · exact .refl _
  have hhook (u : State) : Line.Forward (u.line l) ((u.hookStep l).line l) := by
    rw [State.line_hookStep]
    split
    next h => exact (Line.Move.takeHook (c := .startTimebase) (programs := u.programs) h.2).forward
    · exact .refl _
  have hring (u : State) : Line.Forward (u.line l) ((u.ringStep l).line l) := by
    rw [State.line_ringStep]
    split
    next h => exact (Line.Move.takeRing (c := .startTimebase) (programs := []) h.2).forward
    · exact .refl _
  have hcapture (u : State) : Line.Forward (u.line l) ((u.captureStep l).line l) := by
    rw [State.line_captureStep]
    split
    · exact Line.stored_forward _
    · exact .refl _
  have hstart (u : State) : Line.Forward (u.line l) ((u.startStep l).line l) := by
    rw [State.line_startStep]
    split
    · exact .of_same rfl rfl rfl rfl
    · exact .refl _
  have hload (u : State) : Line.Forward (u.line l) ((u.loadStep l).line l) := by
    rw [State.line_loadStep]
    split
    next h => exact Line.loadCell_forward _ h.2
    · exact .refl _
  have hline (u : State) (k : Fin 4) : Line.Forward (u.line l) ((u.settleLine k).line l) := by
    by_cases hk : l = k
    · subst hk
      exact (((((hstart u).trans (hcapture _)).trans (hdetector _)).trans (hhook _)).trans (hring _)).trans (hload _)
    · rw [State.line_settleLine_ne _ hk]
      exact .refl _
  have hboundary : Line.Forward (s.line l) (s.boundaryStep.line l) := by
    unfold State.boundaryStep
    split
    · obtain ⟨_, _, _, _, _, _, _, _, _, _, _, hb⟩ := (s.line l).boundary_frame
      rw [State.line_boundary, hb]
      exact .of_same rfl rfl rfl rfl
    · exact .refl _
  unfold State.settle four
  simp only [List.foldl_cons, List.foldl_nil]
  exact hboundary.trans ((hline _ 0).trans ((hline _ 1).trans ((hline _ 2).trans (hline _ 3))))

/-- Settles O58: a frame takes at most the one load left over; of the other commands only those that may take the load do. -/
theorem horizonOnlyAdvancesByLoads : Obligations.HorizonOnlyAdvancesByLoads := by
  intro c s t l h hc he ht
  by_cases hframe : ∃ hrx hook, c = .highwayFrame hrx hook
  · obtain ⟨hrx, hook, rfl⟩ := hframe
    have hforward : Line.Forward (s.line l) (t.line l) ∨ t = s ∨ ∃ u : State, Line.Forward (s.line l) (u.line l) ∧
        (t.line l).horizon = (u.line l).horizon ∧ (t.line l).hs = (u.line l).hs := by
      unfold exec execHighwayFrame at h
      obtain ⟨-, rfl⟩ | ⟨-, rfl⟩ := State.take_next h
      · exact .inr (.inl rfl)
      · split
        · obtain ⟨_, _, _, _, _, _, hf⟩ := (s.settle.line l).frame_frame ((hrxSamples hrx).get l) (hook.get l)
          refine .inr (.inr ⟨s.settle, s.settle_forward l, ?_, ?_⟩) <;> rw [State.line_frameStep, hf]
        · exact .inr (.inl rfl)
    obtain ⟨-, hf⟩ | rfl | ⟨u, ⟨-, hf⟩, hh, hs⟩ := hforward
    · obtain ⟨h1, h2, -⟩ | ⟨h1, h2, h3, -⟩ := hf
      · exact .inl ⟨h1, h2⟩
      · exact .inr ⟨.inr ⟨_, _, rfl⟩, h1, h2, h3⟩
    · exact .inl ⟨rfl, rfl⟩
    · rw [hh, hs]
      obtain ⟨h1, h2, -⟩ | ⟨h1, h2, h3, -⟩ := hf
      · exact .inl ⟨h1, h2⟩
      · exact .inr ⟨.inr ⟨_, _, rfl⟩, h1, h2, h3⟩
  · have hat : s.ForwardAt c l t := (exec_moves h).keeps
      (fun hm => forwardAt_of_move hc (fun _ _ hf => hframe ⟨_, _, hf⟩) hm) (.inl ⟨he, .refl _, .inl ⟨rfl, rfl⟩⟩)
    obtain ⟨-, ⟨-, hf⟩, hloads⟩ | ⟨hoff, -⟩ := hat
    · obtain hstand | hloads := hloads
      · exact .inl hstand
      · obtain ⟨h1, h2, -⟩ | ⟨h1, h2, h3, -⟩ := hf
        · exact .inl ⟨h1, h2⟩
        · exact .inr ⟨hloads, h1, h2, h3⟩
    · exact absurd (hoff.symm.trans ht) Bool.noConfusion

end Sys2Proof.Machine
end

section
/-! The links, the Event Queue and the outputs: the status requests, the flags and modes, arrivals and reads of the Event Queue, the pulses,
and the reset (R1, R102 to R104, R171 to R183). -/

namespace Sys2Proof.Machine

/-! ### What a request answers -/

section Heard

variable {s : State} {l : Fin 4} {line : Byte} {k : Link}

theorem State.Names.takeOn (h : s.Names k line l) (f : State → Fin 4 → State) :
    (s.takeOn k fun s => s.withLine k line (f s)) = .next (f s l) := by
  rw [h.1.takeOn, State.withLine_of_eq h.2]

/-- A frame that was under way when RESET returned high is taken as no request (R183). -/
theorem State.next_ignored {f : State → State} (hl : s.resetLow = false) (hi : (s.link k).ignoring = true) :
    (.next (if s.resetLow then s else s.hear k f) : Host.Outcome State Fault Refusal) =
      .next (s.setLink k { s.link k with ignoring := false, response := [] }) := by
  rw [hl, if_neg Bool.false_ne_true, State.hear_ignored hi]

theorem State.takeOn_ignored (f : State → State) (hl : s.resetLow = false) (hi : (s.link k).ignoring = true) :
    s.takeOn k f = .next (s.setLink k { s.link k with ignoring := false, response := [] }) := by
  cases k <;> exact State.next_ignored hl hi

/-- Every request of a link is ignored in the frame that was under way when RESET returned high (R183). -/
theorem exec_ignored {c : Instr} (hl : s.resetLow = false) (hj : s.job = none) (hi : (s.link k).ignoring = true)
    (hc : Instr.link c = some k) (hw : WellFormed c = true) :
    exec c s = .next (s.setLink k { s.link k with ignoring := false, response := [] }) := by
  cases c with
  | commitDeposit n =>
    obtain rfl : Link.media = k := Option.some.inj hc
    show execCommitDeposit s n = _
    unfold execCommitDeposit
    rw [State.goesOn_idle hj, if_neg Bool.false_ne_true]
    exact State.next_ignored hl hi
  | fillCells mask source time control gain n =>
    obtain rfl : Link.media = k := Option.some.inj hc
    show execFillCells mask source time control gain s n = _
    unfold execFillCells
    rw [State.goesOn_idle hj, if_neg Bool.false_ne_true]
    exact State.next_ignored hl hi
  | unknownCode j code =>
    obtain rfl : j = k := Option.some.inj hc
    show execUnknownCode j code s = _
    have hknown : knownCode j code = false := by simpa [WellFormed] using hw
    unfold execUnknownCode
    rw [hknown, if_neg Bool.false_ne_true]
    exact State.takeOn_ignored _ hl hi
  | truncatedFrame j code =>
    obtain rfl : j = k := Option.some.inj hc
    show execTruncatedFrame j code s = _
    unfold execTruncatedFrame
    rw [if_pos (show (argumentCodes j).contains code = true from hw)]
    exact State.takeOn_ignored _ hl hi
  | lineStatus j | readLinkStatus j | clearLinkStatus j | setIrqMode j =>
    obtain rfl : j = k := Option.some.inj hc
    exact State.takeOn_ignored _ hl hi
  | openDeposit | depositData | abandonDeposit | loadFillPattern | setPlayout | realign | realignWithClear | captureRead
  | readAndClearStatistics =>
    obtain rfl : Link.media = k := Option.some.inj hc
    exact State.next_ignored hl hi
  | startTimebase | configureLine | enableLine | disableLine | setMode | setSupervision | writeTones | writeProgram | startSignal | stopSignal
  | loadCid | cidAlert | ringStart | ringStop | readEvents =>
    obtain rfl : Link.control = k := Option.some.inj hc
    exact State.next_ignored hl hi
  | _ => cases hc

end Heard

/-! ### What an answer leaves unchanged -/

section Frames

variable {s t u : State} {k : Link}

theorem State.PartKept.refl : s.PartKept s := ⟨rfl, rfl, rfl, rfl, rfl, rfl, rfl, rfl, rfl, rfl, rfl, rfl, rfl, rfl⟩

theorem State.PartKept.trans (h : s.PartKept t) (g : t.PartKept u) : s.PartKept u :=
  ⟨g.1.trans h.1, g.2.trans h.2, g.3.trans h.3, g.4.trans h.4, g.5.trans h.5, g.6.trans h.6, g.7.trans h.7, g.8.trans h.8, g.9.trans h.9,
    g.10.trans h.10, g.11.trans h.11, g.12.trans h.12, g.13.trans h.13, g.14.trans h.14⟩

theorem State.PartKept.setLine (h : s.PartKept t) (l : Fin 4) (L : Line) : s.PartKept (t.setLine l L) :=
  h.trans ⟨rfl, rfl, rfl, rfl, rfl, rfl, rfl, rfl, rfl, rfl, rfl, rfl, rfl, rfl⟩

theorem State.PartKept.setStore (h : s.PartKept t) (st : Store) : s.PartKept (t.setStore st) :=
  h.trans ⟨rfl, rfl, rfl, rfl, rfl, rfl, rfl, rfl, rfl, rfl, rfl, rfl, rfl, rfl⟩

theorem State.PartKept.setLink (h : s.PartKept t) (k : Link) (x : LinkState) : s.PartKept (t.setLink k x) := by
  cases k <;> exact h.trans ⟨rfl, rfl, rfl, rfl, rfl, rfl, rfl, rfl, rfl, rfl, rfl, rfl, rfl, rfl⟩

theorem State.PartKept.answer (h : s.PartKept t) (k : Link) (r : Result) (fields : List Byte) : s.PartKept (t.answer k r fields) :=
  h.setLink k _

theorem State.PartKept.queue (h : s.PartKept t) (l : Fin 4) (stamp : Word32) : ∀ es : List Event, s.PartKept (t.queue l stamp es) := by
  intro es
  induction es generalizing t with
  | nil => exact h
  | cons e es ih => exact ih (h.trans ⟨rfl, rfl, rfl, rfl, rfl, rfl, rfl, rfl, rfl, rfl, rfl, rfl, rfl, rfl⟩)

/-- An answer is the response of its link and nothing else. -/
theorem State.answered (ht : ∀ j, t.link j = s.link j) (r : Result) (fields : List Byte) : s.Answered (t.answer k r fields) k (r.byte :: fields) := by
  refine ⟨?_, fun j hj => ?_⟩
  · rw [State.link_answer_same, ht]
  · unfold State.answer
    rw [State.link_setLink_ne _ _ hj, ht]

end Frames

/-! ### LINE STATUS and READ LINK STATUS -/

theorem Store.countFilled_eq (st : Store) (base n : Nat) :
    st.countFilled base n = ((List.range n).filter fun i => (st.read (base + i)).filled).length := by
  induction n with
  | zero => rfl
  | succ n ih =>
    rw [Store.countFilled, ih, List.range_succ, List.filter_append, List.length_append]
    cases h : (st.read (base + n)).filled <;> simp [h]

theorem contextBytes_eq (c : Option Context) : contextBytes c = contextStatus c := by
  cases c with
  | none => rfl
  | some c =>
    obtain ⟨st, m, kind⟩ := c
    cases st <;> cases kind <;> rfl

theorem contextStatus_length (c : Option Context) : (contextStatus c).length = 2 := by
  rw [← contextBytes_eq]
  cases c <;> rfl

theorem Line.lp_of_ring {L : Line} {p : RingEntry} (h : L.playRing = some p) : L.lp = p.len := by rw [Line.lp, h]; rfl

theorem Line.playBase_of_ring {L : Line} {p : RingEntry} (h : L.playRing = some p) : L.playBase = p.base := by
  rw [Line.playBase, h]; rfl

theorem Line.lc_of_ring {L : Line} {c : RingEntry} (h : L.capRing = some c) : L.lc = c.len := by rw [Line.lc, h]; rfl

theorem Line.capBase_of_ring {L : Line} {c : RingEntry} (h : L.capRing = some c) : L.capBase = c.base := by
  rw [Line.capBase, h]; rfl

/-- What LINE STATUS answers for a DISABLED line. -/
theorem State.statusBytes_disabled {s : State} {l : Fin 4} (he : (s.line l).enabled = false) (hd : (s.line l).DisabledLaw) :
    s.statusBytes l =
      [0, 0xFF, 0, 0, 0, 0, 0, 0, 0, 0, 0, 0, 0, 0, 0, 0, 0xFF, 0, 0xFF, 0, 0, 0, 0, 0, 0, 0, 0, 0, 0, 0, 0, 0, 0, 0, 0] := by
  have hcount : s.filledCount l = 0 := by
    unfold State.filledCount
    rw [he]
    rfl
  unfold State.statusBytes
  rw [hcount, ← hd he]
  show [0, 0xFF] ++ bytes4 0 ++ [0, int1 0] ++ [0, 0, 0] ++ nat2 0 ++ [byte 0, 0] ++ [0, 0xFF] ++ [0, 0xFF] ++ Stats.zero.bytes = _
  decide

theorem State.statusBytes_length (s : State) (l : Fin 4) : (s.statusBytes l).length = 35 := by
  have hminimum : (s.line l).minimumBytes.length = 3 := by
    unfold Line.minimumBytes
    split <;> rfl
  have hstats : (s.line l).stats.bytes.length = 16 := rfl
  simp [State.statusBytes, bytes4, nat2, bytes2, contextBytes_eq, contextStatus_length, hminimum, hstats]

/-- Settles O43: the bytes of LINE STATUS one after another, and those of READ LINK STATUS. -/
theorem statusRequestsChangeNothing : Obligations.StatusRequestsChangeNothing := by
  refine ⟨fun s l line k hn => ⟨fun he hd => ?_, fun p bytes he hp hbytes => ?_⟩, fun s => ⟨fun hc => ?_, fun hm => ⟨fun hd => ?_, fun d hd => ?_⟩⟩⟩
  · rw [← State.statusBytes_disabled he hd]
    exact hn.takeOn fun s l => s.answer k .ok (s.statusBytes l)
  · have hstatus : bytes = s.statusBytes l := by
      rw [hbytes]
      have hmode : (s.line l).modeByte = 1 + (if (s.line l).mode = .fax then 2 else 0) + 4 * pendingByte (s.line l).pendingMode := by
        unfold Line.modeByte
        rw [he]
        cases (s.line l).mode <;> rfl
      have hplayout : (s.line l).playoutByte = if (s.line l).started = false then 0 else (s.line l).playout.byte := by
        unfold Line.playoutByte
        rw [he]
        cases (s.line l).started <;> rfl
      have hhorizon : (s.line l).horizonReported = if (s.line l).started = false then 0 else (s.line l).horizon := by
        unfold Line.horizonReported
        rw [he]
        cases (s.line l).started <;> rfl
      have hplaying : (s.line l).playingByte = if (s.line l).started = false then 0 else if (s.line l).playing = .first then 1 else 2 := by
        unfold Line.playingByte
        rw [he]
        cases (s.line l).started <;> cases (s.line l).playing <;> rfl
      have hcount : s.filledCount l = ((List.range p.len).filter fun i => (s.store.read (p.base + i)).filled).length := by
        unfold State.filledCount
        rw [he, if_pos rfl, Line.lp_of_ring hp.1, Line.playBase_of_ring hp.1, Store.countFilled_eq]
      unfold State.statusBytes
      dsimp only
      rw [hmode, hplayout, hhorizon, hplaying, hcount, contextBytes_eq, contextBytes_eq, Stats.bytes]
      have hpending (p : Option PendingMode) : 4 * pendingByte p =
          match p with
          | none => 0
          | some ⟨.voice, _⟩ => 4
          | some ⟨.fax, _⟩ => 8 := by
        rcases p with _ | ⟨_ | _, _⟩ <;> rfl
      have hring (off : Bool) (r : RingState) : flag off + 16 * r.number = (if off then 1 else 0) +
          match r with
          | .idle => 0x00
          | .on _ _ => 0x10
          | .off _ _ => 0x20
          | .cidDelay _ _ _ => 0x30
          | .cidSend _ _ => 0x40 := by
        cases r <;> rfl
      have hminimum : (s.line l).minimumBytes =
          match (s.line l).window.lastMinimum with
          | none => [0, 0, 0]
          | some m => 1 :: int2 m := by
        unfold Line.minimumBytes
        cases (s.line l).window.lastMinimum <;> rfl
      rw [hpending, hring, hminimum]
      simp only [List.append_assoc]
      rfl
    rw [hstatus]
    exact ⟨s.statusBytes_length l, hn.takeOn fun s l => s.answer k .ok (s.statusBytes l)⟩
  · rw [show exec (.readLinkStatus .control) s = _ from hc.takeOn fun s => s.answer .control .ok (s.linkBytes .control)]
    unfold State.linkBytes
    cases s.cLink.frame <;> cases s.cLink.unknown <;> cases s.cLink.irq.mode <;> cases s.timebase <;> rfl
  · rw [show exec (.readLinkStatus .media) s = _ from hm.takeOn fun s => s.answer .media .ok (s.linkBytes .media)]
    unfold State.linkBytes
    rw [hd]
    cases s.mLink.frame <;> cases s.mLink.unknown <;> cases s.sequence <;> cases s.mLink.irq.mode <;> rfl
  · rw [show exec (.readLinkStatus .media) s = _ from hm.takeOn fun s => s.answer .media .ok (s.linkBytes .media)]
    unfold State.linkBytes
    rw [hd]
    cases s.mLink.frame <;> cases s.mLink.unknown <;> cases s.sequence <;> cases s.mLink.irq.mode <;> rfl

/-! ### Flags, modes, unknown and truncated frames -/

theorem irqModeOf_ge {mode : Byte} (h : 2 ≤ mode.toNat) : irqModeOf mode = none := by
  have h0 : mode ≠ 0 := by rintro rfl; exact absurd h (by decide)
  have h1 : mode ≠ 1 := by rintro rfl; exact absurd h (by decide)
  rw [irqModeOf, if_neg h0, if_neg h1]

theorem State.answer_setLink (s : State) (k : Link) (x : LinkState) (r : Result) (fields : List Byte) :
    (s.setLink k x).answer k r fields = s.setLink k { x with response := r.byte :: fields } := by
  cases k <;> rfl

theorem State.Hears.setIrqMode {s : State} {k : Link} (h : s.Hears k) {mode : Byte} {m : IrqMode} (hm : irqModeOf mode = some m) :
    exec (.setIrqMode k mode) s = .next (s.setLink k { s.link k with irq := (s.link k).irq.setMode m, response := [0, m.byte] }) := by
  show execSetIrqMode k mode s = _
  unfold execSetIrqMode
  rw [h.takeOn, hm]
  exact congrArg Host.Outcome.next (State.answer_setLink ..)

theorem IrqOut.setMode_same {i : IrqOut} {m : IrqMode} (h : i.mode = m) : i.setMode m = i := if_pos h

theorem IrqOut.setMode_ne {i : IrqOut} {m : IrqMode} (h : i.mode ≠ m) : i.setMode m = ⟨m, 0, 0, 0⟩ := if_neg h

/-- Settles O44. -/
theorem linkFlagsAndModes : Obligations.LinkFlagsAndModes := by
  refine ⟨fun s hc hm => ?_, fun s k c bytes hl hj hi hf hw => exec_ignored hl hj hi (Instr.link_of_frameOf hf) hw⟩
  have hears (k : Link) : s.Hears k := by cases k <;> assumption
  refine ⟨hc.takeOn fun s => (s.clearFlags .control).answer .control .ok [], hm.takeOn fun s => (s.clearFlags .media).answer .media .ok [],
    fun k => ⟨fun mode hmode => ?_, fun hlevel => ⟨?_, ?_⟩, fun hpulse => ⟨?_, ?_⟩⟩, fun k code hcode => ?_, fun k code harg hcode => ?_, ?_⟩
  · show execSetIrqMode k mode s = _
    unfold execSetIrqMode
    rw [(hears k).takeOn, irqModeOf_ge hmode]
  · rw [(hears k).setIrqMode (m := .pulse) rfl, IrqOut.setMode_ne (by rw [hlevel]; decide)]
    rfl
  · rw [(hears k).setIrqMode (m := .level) rfl, IrqOut.setMode_same hlevel]
    rfl
  · rw [(hears k).setIrqMode (m := .level) rfl, IrqOut.setMode_ne (by rw [hpulse]; decide)]
    rfl
  · rw [(hears k).setIrqMode (m := .pulse) rfl, IrqOut.setMode_same hpulse]
    rfl
  · show execUnknownCode k code s = _
    unfold execUnknownCode
    rw [hcode, if_neg Bool.false_ne_true, (hears k).takeOn]
    exact congrArg Host.Outcome.next (State.answer_setLink ..)
  · show execTruncatedFrame k code s = _
    unfold execTruncatedFrame
    have hdata : ¬(k = .media ∧ code = depositDataCode) := by
      rintro ⟨rfl, rfl⟩
      obtain h | h := hcode
      · cases h
      · exact h rfl
    rw [if_pos harg, (hears k).takeOn, if_neg hdata]
    rfl
  · exact hm.takeMedia fun s => (s.breakDeposit).truncated .media

/-! ### The Event Queue -/

theorem countUp_eq_min (top n : Nat) : countUp top n = min top (n + 1) := by
  unfold countUp
  split <;> omega

theorem IrqOut.owe_255 (i : IrqOut) : i.owe 255 = { i with owed := if i.mode = .pulse then min 255 (i.owed + 1) else i.owed } := by
  obtain ⟨mode, owed, low, gap⟩ := i
  cases mode with
  | level => rfl
  | pulse => exact congrArg (IrqOut.mk .pulse · low gap) (countUp_eq_min 255 owed)

theorem nat2_eq (n : Nat) : nat2 n = [BitVec.ofNat 8 (n / 256), BitVec.ofNat 8 n] := by
  have hhigh : (BitVec.ofNat 16 n).extractLsb' 8 8 = BitVec.ofNat 8 (n / 256) := by
    apply BitVec.eq_of_toNat_eq
    simp only [BitVec.extractLsb'_toNat, BitVec.toNat_ofNat, Nat.shiftRight_eq_div_pow]
    omega
  have hlow : (BitVec.ofNat 16 n).extractLsb' 0 8 = BitVec.ofNat 8 n := by
    apply BitVec.eq_of_toNat_eq
    simp only [BitVec.extractLsb'_toNat, BitVec.toNat_ofNat, Nat.shiftRight_eq_div_pow]
    omega
  rw [nat2, bytes2, hhigh, hlow]

theorem eventFields_eq (e : Event) : eventFields e = (e.code, e.detail) := by
  cases e with
  | offHook trip => cases trip <;> rfl
  | faxAnswer r => cases r <;> rfl
  | modeChanged m c => cases m <;> cases c <;> rfl
  | ringDone c => cases c <;> rfl
  | cidAborted c => cases c <;> rfl
  | signalDone v => cases v <;> rfl
  | signalCancelled v c => cases v <;> cases c <;> rfl
  | digitEnd d n => exact congrArg (fun bs => ((0x11 : Byte), digitByte d :: (bs ++ [0]))) (nat2_eq n).symm
  | overflow n => exact congrArg (fun bs => ((0x7F : Byte), bs ++ [0, 0])) (nat2_eq n).symm
  | _ => rfl

theorem EventRecord.bytes_eq (r : EventRecord) :
    r.bytes = [(eventFields r.event).1, (r.line.map fun l => BitVec.ofNat 8 l.val).getD 0xFF] ++ bytes4 r.stamp ++ (eventFields r.event).2 := by
  obtain ⟨e, line, stamp⟩ := r
  rw [eventFields_eq]
  cases line <;> rfl

theorem EventRecord.bytes_length (r : EventRecord) : r.bytes.length = 10 := by
  obtain ⟨e, line, stamp⟩ := r
  cases e <;> rfl

theorem State.arrive_room (s : State) (r : EventRecord) (h : overflowed s.events = false) : s.arrive r = { s with
    events := s.events ++ [if s.events.length < 63 then r else ⟨.overflow 1, none, r.stamp⟩]
    cLink := { s.cLink with irq := { s.cLink.irq with
      owed := if s.cLink.irq.mode = .pulse then min 255 (s.cLink.irq.owed + 1) else s.cLink.irq.owed } } } := by
  have hevents : enqueue s.events r = s.events ++ [if s.events.length < 63 then r else ⟨.overflow 1, none, r.stamp⟩] := by
    by_cases hl : s.events.length < 63
    · rw [enqueue_room h hl, if_pos hl]
    · rw [enqueue_full h (Nat.le_of_not_lt hl), if_neg hl]
  rw [State.arrive, hevents, h, if_neg Bool.false_ne_true, IrqOut.owe_255]

theorem State.arrive_overflowed (s : State) (r : EventRecord) {q : List EventRecord} {n : Nat} {line : Option (Fin 4)} {stamp : Word32}
    (h : s.events = q ++ [⟨.overflow n, line, stamp⟩]) : s.arrive r = { s with events := q ++ [⟨.overflow (min 65535 (n + 1)), line, stamp⟩] } := by
  have ho : overflowed s.events = true := by
    rw [h, overflowed_append]
    rfl
  have hevents : enqueue s.events r = q ++ [⟨.overflow (min 65535 (n + 1)), line, stamp⟩] := by
    rw [enqueue_overflowed ho, h, List.dropLast_concat, List.getLast?_concat, ← countUp_eq_min]
    rfl
  rw [State.arrive, hevents, if_pos ho]

/-- An event of the part itself takes place while RESET is high. -/
theorem State.next_high {s t : State} (h : s.resetLow = false) :
    (.next (if s.resetLow then s else t) : Host.Outcome State Fault Refusal) = .next t :=
  congrArg Host.Outcome.next (if_neg (by rw [h]; exact Bool.false_ne_true))

/-- The ring step of an event that the ring state makes occur. -/
theorem State.ringStep_due {s : State} {l : Fin 4} (h : (s.line l).ringDue = true) :
    s.ringStep l = s.commitLine l (s.g - 1) (s.line l).takeRing := if_pos h

theorem exec_burstEnd {s : State} {l : Fin 4} {begun remaining : Nat} (hl : s.resetLow = false) (hd : (s.line l).ringDue = true)
    (hr : (s.line l).ring.state = .on begun remaining) (h : remaining ≤ 1) :
    exec (.burstEnd l) s = .next (s.commitLine l (s.g - 1) (s.line l).takeRing) := by
  have hends : (s.line l).ring.state.endsBurst = true := by
    rw [hr]
    exact decide_eq_true h
  rw [← State.ringStep_due hd]
  exact (State.next_high hl).trans (congrArg Host.Outcome.next (if_pos hends))

/-- The last burst of a ringing ends with RING DONE cause COUNT (R153). -/
theorem Line.takeRing_done {L : Line} {begun remaining : Nat} (hr : L.ring.state = .on begun remaining) (h : remaining ≤ 1)
    (hc : L.ring.cid = none) (hb : L.ring.bursts = begun) (h0 : begun ≠ 0) :
    L.takeRing = (({ L with due := { L.due with ring := false } } : Line).ringIdle, [.ringDone .count]) := by
  unfold Line.takeRing Line.stepRing
  dsimp only
  rw [hr]
  dsimp only
  rw [if_pos h]
  unfold Line.endBurst
  dsimp only
  rw [hc]
  dsimp only
  unfold Line.endPlainBurst
  dsimp only
  rw [if_neg (by omega)]

/-- Settles O45. -/
theorem eventQueueArrivalsAndReads : Obligations.EventQueueArrivalsAndReads := by
  refine ⟨fun s r => ⟨s.arrive_room r, fun q n line stamp h => s.arrive_overflowed r h⟩, fun s l stamp e es => ⟨rfl, rfl⟩,
    fun s l begun remaining hl hd hr h hc hb h0 => ?_, fun s maximum hs => ⟨fun hmax => ?_, fun h1 h16 => ?_⟩⟩
  · refine ⟨_, exec_burstEnd hl hd hr h, ?_, ?_, fun ho hlen => ?_⟩
    · rw [Line.takeRing_done hr h hc hb h0]
      rfl
    · rw [Line.takeRing_done hr h hc hb h0]
      rfl
    · rw [Line.takeRing_done hr h hc hb h0]
      exact enqueue_full ho (Nat.le_of_eq hlen.symm)
  · show execReadEvents maximum s = _
    unfold execReadEvents
    rw [hs.takeControl, if_neg (by omega)]
  · refine ⟨({ s with events := s.events.drop (min maximum.toNat s.events.length) } : State).answer .control .ok
      (byte (min maximum.toNat s.events.length) :: (s.events.take (min maximum.toNat s.events.length)).flatMap EventRecord.bytes),
      ?_, rfl, ?_, ?_, rfl, rfl, ⟨rfl, rfl, rfl, rfl, rfl, rfl, rfl, rfl, rfl, rfl, rfl, rfl, rfl, rfl⟩⟩
    · show execReadEvents maximum s = _
      unfold execReadEvents
      rw [hs.takeControl, if_pos ⟨h1, h16⟩]
    · have hbytes : EventRecord.bytes = fun r : EventRecord =>
          [(eventFields r.event).1, (r.line.map fun l => BitVec.ofNat 8 l.val).getD 0xFF] ++ bytes4 r.stamp ++ (eventFields r.event).2 :=
        funext EventRecord.bytes_eq
      rw [← hbytes]
      exact State.answered (fun j => by cases j <;> rfl) ..
    · simp [EventRecord.bytes_length]
      omega

/-! ### Interrupt outputs -/

theorem IrqOut.ticks_low {p : Nat} (n : Nat) (h1 : 1 ≤ p) (h4 : p ≤ 4) : IrqOut.ticks p ⟨.pulse, n + 1, 0, 0⟩ = ⟨.pulse, n + 1, 5 - p, 0⟩ := by
  interval_cases p <;> simp [IrqOut.ticks, IrqOut.tick]

theorem IrqOut.ticks_high {p : Nat} (n : Nat) (h5 : 5 ≤ p) (h8 : p ≤ 8) : IrqOut.ticks p ⟨.pulse, n + 1, 0, 0⟩ = ⟨.pulse, n, 0, 8 - p⟩ := by
  interval_cases p <;> simp [IrqOut.ticks, IrqOut.tick]

theorem State.mirq_pulse {s : State} (h : s.mLink.irq.mode = .pulse) : s.mirq = true ↔ 1 ≤ s.mLink.irq.low := by
  unfold State.mirq
  rw [h]
  simp [Nat.one_le_iff_ne_zero]

theorem State.cirq_pulse {s : State} (h : s.cLink.irq.mode = .pulse) : s.cirq = true ↔ 1 ≤ s.cLink.irq.low := by
  unfold State.cirq
  rw [h]
  simp [Nat.one_le_iff_ne_zero]

theorem State.mirq_level {s : State} (h : s.mLink.irq.mode = .level) :
    s.mirq = true ↔ ∃ l, (s.line l).enabled = true ∧ (s.line l).capThreshold ≤ (s.line l).unread := by
  unfold State.mirq
  rw [h]
  simp [Line.captureReady, State.line]

theorem State.cirq_level {s : State} (h : s.cLink.irq.mode = .level) : s.cirq = true ↔ s.events ≠ [] := by
  unfold State.cirq
  rw [h]
  simp

theorem exec_mirqPulse {s : State} (p : Nat) (hl : s.resetLow = false) :
    exec (.mirqPulse p) s = .next { s with mLink := { s.mLink with irq := s.mLink.irq.ticks p } } :=
  State.next_high hl

theorem exec_cirqPulse {s : State} (p : Nat) (hl : s.resetLow = false) :
    exec (.cirqPulse p) s = .next { s with cLink := { s.cLink with irq := s.cLink.irq.ticks p } } :=
  State.next_high hl

/-- Settles O46. -/
theorem interruptOutputsFollowState : Obligations.InterruptOutputsFollowState := by
  refine ⟨fun s => ⟨s.mirq_level, s.cirq_level, s.mirq_pulse, s.cirq_pulse⟩, fun s n hl => ⟨fun hi => ?_, fun hi => ?_⟩⟩
  · refine ⟨fun p h1 h4 => ⟨_, exec_mirqPulse p hl, ?_⟩, fun p h5 h8 => ⟨_, exec_mirqPulse p hl, ?_⟩, ⟨_, exec_mirqPulse 8 hl, ?_⟩⟩
    · rw [hi, IrqOut.ticks_low n h1 h4]
      exact ⟨(State.mirq_pulse rfl).mpr (show 1 ≤ 5 - p by omega), rfl⟩
    · rw [hi, IrqOut.ticks_high n h5 h8]
      exact ⟨Bool.eq_false_iff.mpr fun h => absurd ((State.mirq_pulse rfl).mp h) (Nat.not_succ_le_zero 0), rfl⟩
    · rw [hi, IrqOut.ticks_high n (by decide) (by decide)]
  · refine ⟨fun p h1 h4 => ⟨_, exec_cirqPulse p hl, ?_⟩, fun p h5 h8 => ⟨_, exec_cirqPulse p hl, ?_⟩, ⟨_, exec_cirqPulse 8 hl, ?_⟩⟩
    · rw [hi, IrqOut.ticks_low n h1 h4]
      exact ⟨(State.cirq_pulse rfl).mpr (show 1 ≤ 5 - p by omega), rfl⟩
    · rw [hi, IrqOut.ticks_high n h5 h8]
      exact ⟨Bool.eq_false_iff.mpr fun h => absurd ((State.cirq_pulse rfl).mp h) (Nat.not_succ_le_zero 0), rfl⟩
    · rw [hi, IrqOut.ticks_high n (by decide) (by decide)]

/-! ### DEVICE RESET and the data outputs -/

/-- Settles O4: the reset state field by field, and the bytes of an output before, in and after the response. -/
theorem deviceResetRestoresEverything : Obligations.DeviceResetRestoresEverything := by
  refine ⟨fun low cFrame mFrame s => ⟨_, rfl, rfl, rfl, rfl, rfl, rfl, rfl, ?_, rfl, rfl, rfl, rfl, rfl, rfl, fun l => ?_, fun a => rfl, rfl,
    fun n => ⟨rfl, rfl⟩⟩, fun s k arguments n => ⟨fun selected h => ?_, fun hl => ⟨fun hn => ?_, fun b hb => ?_, fun hn => ?_⟩, fun selected i hi => ?_⟩⟩
  · rfl
  · fin_cases l <;> exact ⟨rfl, rfl, rfl, rfl, rfl, rfl, fun m => Four.get_all _ m, ⟨rfl, rfl⟩, rfl, rfl, rfl, rfl, rfl, rfl⟩
  · obtain h | rfl := h
    · simp [State.outputByte, h]
    · simp [State.outputByte]
  · simp [State.outputByte, hl, hn]
  · simp [State.outputByte, hl, hb]
  · simp [State.outputByte, hl, List.getElem?_eq_none hn]
  · unfold State.outputBit
    rw [Nat.mul_add_div (by decide), Nat.mul_add_mod, Nat.div_eq_of_lt hi, Nat.mod_eq_of_lt hi, Nat.add_zero]

end Sys2Proof.Machine
end

section
/-! The requests about a line and the tables: entries, enable and disable, mode and supervision, tones, programs, the fill pattern (R7, R8, R12,
R13, R16 to R19, R69, R105 to R109, R167, R168). -/

namespace Sys2Proof.Machine

/-! ### Refusals -/

/-- A check that fails is one of the table, with the result it answers. -/
theorem mem_of_firstFailing {checks : List (Bool × Result)} {r : Result} (h : firstFailing checks = some r) : (false, r) ∈ checks := by
  induction checks with
  | nil => cases h
  | cons c rest ih =>
    obtain ⟨ok, x⟩ := c
    cases ok with
    | true => exact List.mem_cons_of_mem _ (ih h)
    | false =>
      obtain rfl : x = r := Option.some.inj h
      exact List.mem_cons_self

/-! ### CONFIGURE LINE -/

section Configure

variable {s : State} {l : Fin 4}

theorem RingEntry.clearOf_iff {e : RingEntry} {o : Option RingEntry} :
    e.clearOf o = true ↔ ∀ r, o = some r → e.base + e.len ≤ r.base ∨ r.base + r.len ≤ e.base := by
  cases o with
  | none => exact ⟨fun _ _ h => (nomatch h), fun _ => rfl⟩
  | some r => simp [RingEntry.clearOf, RingEntry.disjoint]

theorem State.clearOfOthers_iff {e : RingEntry} : s.clearOfOthers l e = true ↔
    ∀ k r, k ≠ l → ((s.line k).playRing = some r ∨ (s.line k).capRing = some r) → e.base + e.len ≤ r.base ∨ r.base + r.len ≤ e.base := by
  have hline (k : Fin 4) : (k == l || (e.clearOf (s.line k).playRing && e.clearOf (s.line k).capRing)) = true ↔
      ∀ r, k ≠ l → ((s.line k).playRing = some r ∨ (s.line k).capRing = some r) → e.base + e.len ≤ r.base ∨ r.base + r.len ≤ e.base := by
    rw [Bool.or_eq_true, Bool.and_eq_true, beq_iff_eq, RingEntry.clearOf_iff, RingEntry.clearOf_iff]
    refine ⟨fun h r hk hr => ?_, fun h => ?_⟩
    · obtain rfl | ⟨hp, hc⟩ := h
      · exact absurd rfl hk
      · exact hr.elim (hp r) (hc r)
    · by_cases hk : k = l
      · exact .inl hk
      · exact .inr ⟨fun r hr => h r hk (.inl hr), fun r hr => h r hk (.inr hr)⟩
  unfold State.clearOfOthers
  rw [List.all_eq_true]
  exact ⟨fun h k => (hline k).mp (h k (mem_four k)), fun h k _ => (hline k).mpr (h k)⟩

/-- The entries of a DISABLED line that CONFIGURE LINE accepts (R17). -/
theorem configureChecks_pass {p c : RingEntry} (he : (s.line l).enabled = false)
    (h : (p.len = 0 ∧ c.len = 0) ∨ (8 ≤ p.len ∧ p.len ≤ 256 ∧ 4 ≤ c.len ∧ c.len ≤ 64) ∧ (p.base + p.len ≤ 1024 ∧ c.base + c.len ≤ 1024) ∧
      (p.base + p.len ≤ c.base ∨ c.base + c.len ≤ p.base) ∧ s.clearOfOthers l p = true ∧ s.clearOfOthers l c = true) :
    firstFailing (configureChecks s l p c) = none := by
  rw [firstFailing_eq_none]
  simp only [configureChecks, RingEntry.fits, RingEntry.disjoint, List.mem_cons, List.not_mem_nil, or_false, forall_eq_or_imp, forall_eq,
    Bool.or_eq_true, Bool.and_eq_true, beq_iff_eq, decide_eq_true_eq, Bool.not_eq_true']
  obtain hz | ⟨⟨h1, h2, h3, h4⟩, ⟨h5, h6⟩, h7, h8⟩ := h
  · exact ⟨he, .inl hz, .inl hz, .inl hz, .inl hz⟩
  · exact ⟨he, .inr ⟨⟨⟨h1, h2⟩, h3⟩, h4⟩, .inr ⟨by omega, by omega⟩, .inr h7, .inr h8⟩

/-- On a DISABLED line nothing is refused but with RANGE (R17). -/
theorem configureChecks_range {p c : RingEntry} (he : (s.line l).enabled = false) (h : firstFailing (configureChecks s l p c) ≠ none) :
    firstFailing (configureChecks s l p c) = some .range := by
  obtain ⟨r, hr⟩ := Option.ne_none_iff_exists'.mp h
  have hmem := mem_of_firstFailing hr
  rw [hr]
  simp only [configureChecks, List.mem_cons, Prod.mk.injEq, List.not_mem_nil, or_false, he] at hmem
  obtain ⟨h, -⟩ | ⟨-, h⟩ | ⟨-, h⟩ | ⟨-, h⟩ | ⟨-, h⟩ := hmem
  · cases h
  all_goals rw [h]

theorem State.Names.configure {line : Byte} (hn : s.Names .control line l) (pb pl cb : Word16) (cl : Byte) :
    exec (.configureLine line pb pl cb cl) s = .next (s.checked .control (configureChecks s l ⟨pb.toNat, pl.toNat⟩ ⟨cb.toNat, cl.toNat⟩)
      ((s.setLine l ((s.line l).withRings ⟨pb.toNat, pl.toNat⟩ ⟨cb.toNat, cl.toNat⟩)).answer .control .ok [])) :=
  hn.takeControl fun s l => s.checked .control (configureChecks s l ⟨pb.toNat, pl.toNat⟩ ⟨cb.toNat, cl.toNat⟩)
      ((s.setLine l ((s.line l).withRings ⟨pb.toNat, pl.toNat⟩ ⟨cb.toNat, cl.toNat⟩)).answer .control .ok [])

/-- Settles O8. -/
theorem configureLineReplacesEntries : Obligations.ConfigureLineReplacesEntries := by
  intro s l line pb pl cb cl hn
  rw [hn.configure]
  refine ⟨fun he h1 h2 h3 h4 h5 h6 h7 h8 => ?_, fun he hp hc => ?_, fun he hne hbad => ?_, fun he => ?_⟩
  · have hclear (e : RingEntry) (h : e = ⟨pb.toNat, pl.toNat⟩ ∨ e = ⟨cb.toNat, cl.toNat⟩) : s.clearOfOthers l e = true := by
      refine State.clearOfOthers_iff.mpr fun k r hk hr => ?_
      obtain rfl | rfl := h
      · exact (h8 k r hk hr).1
      · exact (h8 k r hk hr).2
    rw [State.checked_pass (configureChecks_pass he (.inr ⟨⟨h1, h2, h3, h4⟩, ⟨h5, h6⟩, h7, hclear _ (.inl rfl), hclear _ (.inr rfl)⟩)),
      Line.withRings, if_neg (by dsimp only; omega)]
  · subst hp hc
    rw [State.checked_pass (configureChecks_pass he (.inl ⟨rfl, rfl⟩)), Line.withRings, if_pos ⟨rfl, rfl⟩]
  · rw [State.checked_fail (configureChecks_range he fun hpass => ?_)]
    obtain ⟨-, hrings, hclear⟩ := configureChecks_passed hpass
    have hnz : ¬(pl.toNat = 0 ∧ cl.toNat = 0) := by
      rintro ⟨hp, hc⟩
      exact hne.elim (fun h => h (BitVec.eq_of_toNat_eq hp)) fun h => h (BitVec.eq_of_toNat_eq hc)
    obtain hz | ⟨h1, h2, h3, h4, h5, h6, h7⟩ := hrings
    · exact hnz hz
    obtain hz | ⟨hp, hc⟩ := hclear
    · exact hnz hz
    simp only [RingEntry.disjoint, Bool.or_eq_true, decide_eq_true_eq] at *
    obtain h | h | h | h | ⟨k, e, hk, he, h⟩ := hbad
    · omega
    · omega
    · omega
    · omega
    · have hpe := State.clearOfOthers_iff.mp hp k e hk he
      have hce := State.clearOfOthers_iff.mp hc k e hk he
      dsimp only at hpe hce
      omega
  · rw [State.checked_fail (r := .state) (by rw [configureChecks, he]; rfl)]

end Configure

/-! ### Requests that replace a line's record -/

section Replace

variable {s t : State} {l : Fin 4} {k : Link}

/-- What else a request that replaces the record of one line, and cells of the store, does: it answers. -/
theorem State.replaced (s : State) (st : Store) (l : Fin 4) (L : Line) (k : Link) (r : Result) (fields : List Byte) {t : State}
    (ht : t = ((s.setStore st).setLine l L).answer k r fields) :
    t.line l = L ∧ t.store = st ∧ s.OtherLinesKept t l ∧ s.PartKept t ∧ s.Answered t k (r.byte :: fields) ∧ t.events = s.events := by
  subst ht
  refine ⟨?_, by cases k <;> rfl, fun j hj => ?_, (((State.PartKept.refl.setStore st).setLine l L).answer k r fields),
    State.answered (fun j => by cases j <;> rfl) r fields, by cases k <;> rfl⟩
  · cases k <;> exact State.line_setLine_same ..
  · cases k <;> exact State.line_setLine_ne _ _ hj

theorem Store.read_emptyRing {st : Store} {L : Line} {p : RingEntry} (hst : st.wf = true) (hp : L.HasRing p) (a : Nat) :
    (st.emptyRing L).read a = if p.base ≤ a ∧ a < p.base + p.len then StoreCell.reset else st.read a := by
  rw [Store.emptyRing, Line.playBase_of_ring hp.1, Line.lp_of_ring hp.1, Store.read_emptyCells _ _ hst _ hp.2]

end Replace

/-! ### ENABLE LINE and DISABLE LINE -/

section Enable

variable {s : State} {l : Fin 4} {line : Byte}

theorem State.Names.enable (hn : s.Names .control line l) : exec (.enableLine line) s = .next
    (if (s.line l).enabled then s.answer .control .ok []
    else
      s.checked .control
        [ (s.timebase == .running, .state), ((s.line l).playRing.isSome && (s.line l).capRing.isSome, .state) ]
        (((s.setStore (s.store.emptyRing (s.line l))).setLine l (s.line l).setUp).answer .control .ok [])) := by
  show execEnableLine line s = _
  unfold execEnableLine
  rw [hn.1.takeControl, State.withLine_of_eq hn.2]

theorem State.Names.disable (hn : s.Names .control line l) : exec (.disableLine line) s = .next
    (if (s.line l).enabled then
      ((s.setStore (s.store.emptyRing (s.line l))).setLine l (s.line l).shutDown).answer .control .ok []
    else s.answer .control .ok []) := by
  show execDisableLine line s = _
  unfold execDisableLine
  rw [hn.1.takeControl, State.withLine_of_eq hn.2]

/-- Settles O10. -/
theorem enableLineSetsUpTimeline : Obligations.EnableLineSetsUpTimeline := by
  intro s l line hn
  refine ⟨fun he => ?_, fun he hh => ?_, fun he hr => ?_, fun p c he ht hp hc hst => ⟨_, hn.enable, ?_⟩⟩
  · rw [hn.enable, if_pos he]
  · rw [hn.enable, if_neg (by rw [he]; exact Bool.false_ne_true), State.checked_fail (r := .state) (by rw [hh]; rfl)]
  · rw [hn.enable, if_neg (by rw [he]; exact Bool.false_ne_true), State.checked_fail (r := .state)]
    cases s.timebase with
    | held => rfl
    | running =>
      obtain h | h := hr
      · rw [h]; rfl
      · rw [h, Option.isSome_none, Bool.and_false]; rfl
  · rw [if_neg (by rw [he]; exact Bool.false_ne_true), State.checked_pass (by rw [ht, hp.1, hc]; rfl)]
    obtain ⟨hline, hstore, hothers, hpart, hanswered, hevents⟩ := State.replaced s _ l (s.line l).setUp .control .ok [] rfl
    refine ⟨?_, fun a => ?_, hothers, hpart, hanswered, hevents⟩
    · rw [hline, Line.setUp, Line.lp_of_ring hp.1, Line.lc_of_ring hc]
      rfl
    · rw [hstore, Store.read_emptyRing hst hp]

/-- Settles O11. -/
theorem disableLineGivesUpTimeline : Obligations.DisableLineGivesUpTimeline := by
  intro s l line hn
  refine ⟨fun he => ?_, fun p he hp hst => ⟨_, hn.disable, ?_⟩⟩
  · rw [hn.disable, if_neg (by rw [he]; exact Bool.false_ne_true)]
  · rw [if_pos he]
    obtain ⟨hline, hstore, hothers, hpart, hanswered, hevents⟩ := State.replaced s _ l (s.line l).shutDown .control .ok [] rfl
    rw [hline]
    exact ⟨rfl, rfl, ⟨rfl, rfl⟩, rfl, rfl, rfl, rfl, fun a => by rw [hstore, Store.read_emptyRing hst hp], hothers, hpart, hanswered, hevents⟩

end Enable

/-! ### SET MODE and SET SUPERVISION -/

section Supervision

variable {s t : State} {l : Fin 4} {line : Byte}

theorem State.Names.setMode (hn : s.Names .control line l) {mode : Byte} {m : LineMode} (hm : modeOf mode = some m)
    (he : (s.line l).enabled = true) {p : Option PendingMode} (hp : (s.line l).requestMode m = { s.line l with pendingMode := p }) :
    exec (.setMode line mode) s = .next
      ((s.setLine l { s.line l with pendingMode := p }).answer .control .ok [(s.line l).mode.byte, pendingByte p]) := by
  show execSetMode line mode s = _
  unfold execSetMode
  rw [hn.1.takeControl, State.withLine_of_eq hn.2, hm]
  dsimp only
  rw [if_pos he, hp]

theorem Line.requestMode_same {L : Line} {m : LineMode} (h : m = L.mode) : L.requestMode m = { L with pendingMode := none } := by
  rw [Line.requestMode, if_pos h]

theorem Line.requestMode_other {L : Line} {m : LineMode} (h : m ≠ L.mode) :
    L.requestMode m = { L with pendingMode := some ⟨m, .request⟩ } := by
  rw [Line.requestMode, if_neg h]

theorem modeOf_ge {mode : Byte} (h : 2 ≤ mode.toNat) : modeOf mode = none := by
  have h0 : mode ≠ 0 := by rintro rfl; exact absurd h (by decide)
  have h1 : mode ≠ 1 := by rintro rfl; exact absurd h (by decide)
  rw [modeOf, if_neg h0, if_neg h1]

/-- Only SET SUPERVISION changes what it stores (R167). -/
theorem Line.Move.keeps_supervision {c : Instr} {programs : List ProgramRecord} {L M : Line} (h : Line.Move c programs L M)
    (hc : ∀ line control attenuation, c ≠ .setSupervision line control attenuation) :
    M.autoFax = L.autoFax ∧ M.cidAttenuation = L.cidAttenuation := by
  cases h with
  | supervise control attenuation h =>
    obtain ⟨line, h⟩ := h
    exact absurd h (hc _ _ _)
  | startContext record v => cases v <;> exact ⟨rfl, rfl⟩
  | stopProgram v => cases v <;> exact ⟨rfl, rfl⟩
  | stopRinging =>
    obtain ⟨_, _, _, _, _, _, _, _, h, -⟩ := L.endRinging_calls .stop
    unfold Line.stopRinging
    dsimp only
    rw [h]
    exact ⟨rfl, rfl⟩
  | takeDetector =>
    obtain ⟨_, _, _, _, _, _, _, _, h, -⟩ := L.takeDetector_calls programs
    rw [h]
    exact ⟨rfl, rfl⟩
  | takeHook =>
    obtain ⟨_, _, _, _, _, _, _, _, _, h, -⟩ := L.takeHook_calls programs
    rw [h]
    exact ⟨rfl, rfl⟩
  | takeRing =>
    obtain ⟨_, _, _, _, _, _, _, _, h, -⟩ := L.takeRing_calls
    rw [h]
    exact ⟨rfl, rfl⟩
  | _ => exact ⟨rfl, rfl⟩

theorem Move.keeps_supervision {c : Instr} {u v : State} (h : Move c u v) (hreset : NoReset c)
    (hc : ∀ line control attenuation, c ≠ .setSupervision line control attenuation) (k : Fin 4) :
    (v.line k).autoFax = (u.line k).autoFax ∧ (v.line k).cidAttenuation = (u.line k).cidAttenuation := by
  have hsame {w : State} (hw : w.line k = u.line k) : (w.line k).autoFax = (u.line k).autoFax ∧
      (w.line k).cidAttenuation = (u.line k).cidAttenuation := by rw [hw]; exact ⟨rfl, rfl⟩
  have hset {w : State} {j : Fin 4} {L : Line} (hw : w.line k = u.line k)
      (hL : j = k → L.autoFax = (u.line k).autoFax ∧ L.cidAttenuation = (u.line k).cidAttenuation) :
      ((w.setLine j L).line k).autoFax = (u.line k).autoFax ∧ ((w.setLine j L).line k).cidAttenuation = (u.line k).cidAttenuation := by
    rw [State.line_setLine]
    split
    next hk => exact hL hk.symm
    · exact hsame hw
  cases h with
  | reset low cFrame mFrame h => exact absurd h (hreset _ _ _)
  | link j => cases j <;> exact hsame rfl
  | tones start fields =>
    obtain ⟨_, _, _, ht⟩ := u.writeFields_eq start fields
    exact hsame (by rw [ht]; rfl)
  | writeLine j i =>
    refine hset (w := u) rfl ?_
    rintro rfl
    obtain ⟨_, _, _, _, _, hw⟩ := (u.line i).write_frame j.write u.store
    rw [hw]
    exact ⟨rfl, rfl⟩
  | configure i p q =>
    refine hset rfl ?_
    rintro rfl
    unfold Line.withRings
    split <;> exact ⟨rfl, rfl⟩
  | enable i => exact hset (w := u.setStore _) rfl (by rintro rfl; exact ⟨rfl, rfl⟩)
  | disable i => exact hset (w := u.setStore _) rfl (by rintro rfl; exact ⟨rfl, rfl⟩)
  | clear i => exact hset (w := u.setStore _) rfl (by rintro rfl; exact ⟨rfl, rfl⟩)
  | line i L hm => exact hset rfl (by rintro rfl; exact hm.keeps_supervision hc)
  | store i =>
    refine hset (w := u.setStore _) rfl ?_
    rintro rfl
    obtain ⟨_, _, _, _, hs⟩ := (u.line i).stored_frame
    rw [hs]
    exact ⟨rfl, rfl⟩
  | load i =>
    refine hset (w := u.setStore _) rfl ?_
    rintro rfl
    obtain ⟨cell, slip, mark, _, _, _, _, _, _, _, _, _, _, _, _, _, _, _, _, hl, -⟩ := (u.line i).loadCell_frame (u.loadInput i)
    rw [hl]
    unfold Line.setHalf
    split <;> exact ⟨rfl, rfl⟩
  | boundary =>
    obtain ⟨_, _, _, _, _, _, _, _, _, _, _, hb⟩ := (u.line k).boundary_frame
    rw [State.line_boundary, hb]
    exact ⟨rfl, rfl⟩
  | frame hrx hook =>
    obtain ⟨_, _, _, _, _, _, hf⟩ := (u.line k).frame_frame ((hrxSamples hrx).get k) (hook.get k)
    rw [State.line_frameStep, hf]
    exact ⟨rfl, rfl⟩
  | _ => exact hsame rfl

/-- Settles O12. -/
theorem modeAndSupervisionStored : Obligations.ModeAndSupervisionStored := by
  refine ⟨fun s l line hn => ⟨fun mode => ⟨fun hmode => ?_, fun hmode he => ?_⟩, fun he hm => ?_, fun he hm => ?_, fun control attenuation => ?_⟩,
    fun s line hc hl => ⟨fun _ => hc.noLine_control hl _, fun _ _ => hc.noLine_control hl _⟩,
    fun low cFrame mFrame s => ⟨_, rfl, fun l => by fin_cases l <;> exact ⟨rfl, rfl⟩⟩, fun c s t l h hreset hc => ?_⟩
  · show execSetMode line mode s = _
    unfold execSetMode
    rw [hn.1.takeControl, State.withLine_of_eq hn.2, modeOf_ge hmode]
  · show execSetMode line mode s = _
    unfold execSetMode
    rw [hn.1.takeControl, State.withLine_of_eq hn.2]
    cases hm : modeOf mode with
    | none =>
      unfold modeOf at hm
      split at hm
      · cases hm
      · split at hm
        · cases hm
        · exfalso
          rename_i h0 h1
          bv_omega
    | some m =>
      dsimp only
      rw [if_neg (by rw [he]; exact Bool.false_ne_true)]
  · rw [hn.setMode (mode := 0) rfl he (Line.requestMode_same hm.symm), hn.setMode (mode := 1) rfl he (Line.requestMode_other (by rw [hm]; decide)), hm]
    exact ⟨rfl, rfl⟩
  · rw [hn.setMode (mode := 1) rfl he (Line.requestMode_same hm.symm), hn.setMode (mode := 0) rfl he (Line.requestMode_other (by rw [hm]; decide)), hm]
    exact ⟨rfl, rfl⟩
  · have hattenuation : min attenuation.toNat 127 = if attenuation.toNat < 128 then attenuation.toNat else 127 := by
      split <;> omega
    have hbyte : byte (min attenuation.toNat 127) = if attenuation.toNat < 128 then attenuation else 127 := by
      rw [hattenuation]
      split
      · exact BitVec.ofNat_toNat ..
      · rfl
    rw [← hbyte, ← hattenuation]
    exact hn.takeControl fun s l => (s.setLine l ((s.line l).supervise control attenuation)).answer .control .ok
      [flag ((s.line l).supervise control attenuation).autoFax, byte ((s.line l).supervise control attenuation).cidAttenuation]
  · exact (exec_moves h).keeps (P := fun u => (u.line l).autoFax = (s.line l).autoFax ∧ (u.line l).cidAttenuation = (s.line l).cidAttenuation)
      (fun hm hs => ⟨(hm.keeps_supervision hreset hc l).1.trans hs.1, (hm.keeps_supervision hreset hc l).2.trans hs.2⟩) ⟨rfl, rfl⟩

end Supervision

end Sys2Proof.Machine
end

section
/-! The tables of the part: the fill pattern, the tone table and the program table (R69, R105 to R109). -/

namespace Sys2Proof.Machine

/-! ### The fill pattern -/

theorem Move.keeps_fillPattern {c : Instr} {s t : State} (h : Move c s t) (hreset : NoReset c)
    (hc : ∀ count samples, c ≠ .loadFillPattern count samples) : t.fillPattern = s.fillPattern := by
  cases h with
  | reset low cFrame mFrame h => exact absurd h (hreset _ _ _)
  | link k => cases k <;> rfl
  | fillPattern xs h =>
    obtain ⟨_, _, h⟩ := h
    exact absurd h (hc _ _)
  | tones start fields =>
    obtain ⟨_, _, _, ht⟩ := s.writeFields_eq start fields
    rw [ht]
  | _ => rfl

theorem State.Hears.loadFillPattern {s : State} (hm : s.Hears .media) (count : Word16) (samples : List Sample) :
    exec (.loadFillPattern count samples) s = .next
      (if !patternCountOk count then s.refuse .media .range
      else if samples.length < 40 then s.truncated .media
      else ({ s with fillPattern := samples.take 40 }).answer .media .ok []) := by
  show execLoadFillPattern count samples s = _
  unfold execLoadFillPattern
  rw [hm.takeMedia]

/-- Settles O29. -/
theorem fillPatternChangesOnlyByItsLoad : Obligations.FillPatternChangesOnlyByItsLoad := by
  refine ⟨fun low cFrame mFrame s => ⟨_, rfl, rfl⟩, fun s count samples hm => ⟨fun hcount hlen => ?_, fun hcount => ?_⟩, fun s hm => ?_,
    fun c s t h hreset hc => ?_⟩
  · have hok : patternCountOk count = true := decide_eq_true hcount
    rw [hm.loadFillPattern, hok, if_neg (by decide), if_neg (by omega), List.take_of_length_le (Nat.le_of_eq hlen)]
  · have hok : patternCountOk count = false := decide_eq_false hcount
    rw [hm.loadFillPattern, hok, if_pos (show (!false) = true from rfl)]
  · show execTruncatedFrame .media 0x45 s = _
    unfold execTruncatedFrame
    rw [if_pos (by decide), hm.takeOn, if_neg (by decide)]
    rfl
  · exact (exec_moves h).keeps (P := fun u => u.fillPattern = s.fillPattern) (fun hm hs => (hm.keeps_fillPattern hreset hc).trans hs) rfl

/-! ### WRITE TONES -/

section Tones

variable {s : State}

theorem State.Hears.writeTones (hs : s.Hears .control) (start count : Byte) (fields : List Word16) :
    exec (.writeTones start count fields) s = .next
      (if !(toneStartOk start && toneCountOk count) then s.refuse .control .range
      else if fields.length < count.toNat then s.truncated .control
      else (s.writeFields start (fields.take count.toNat)).answer .control .ok
        [byte (s.writeFields start (fields.take count.toNat)).toneCursor,
          byte (s.writeFields start (fields.take count.toNat)).toneStaging.length]) := by
  show execWriteTones start count fields s = _
  unfold execWriteTones
  rw [hs.takeControl]

/-- A WRITE TONES that carries as many fields as it counts. -/
theorem State.Hears.writeTones_all (hs : s.Hears .control) {start : Byte} (hstart : toneStartOk start = true) {fields : List Word16}
    (hl : fields.length ≤ 96) : exec (.writeTones start (BitVec.ofNat 8 fields.length) fields) s = .next
      ((s.writeFields start fields).answer .control .ok
        [byte (s.writeFields start fields).toneCursor, byte (s.writeFields start fields).toneStaging.length]) := by
  have hcount : (BitVec.ofNat 8 fields.length).toNat = fields.length := by
    rw [BitVec.toNat_ofNat]
    omega
  have hok : toneCountOk (BitVec.ofNat 8 fields.length) = true := decide_eq_true (by rw [hcount]; exact hl)
  rw [hs.writeTones, hstart, hok, if_neg (by decide), hcount, if_neg (Nat.lt_irrefl _), List.take_length]

theorem State.takeField_answer (s : State) (r : Result) (bytes : List Byte) (f : Word16) :
    (s.answer .control r bytes).takeField f = (s.takeField f).answer .control r bytes := by
  obtain h | ⟨a, h⟩ | ⟨a, b, h⟩ | ⟨a, b, c, cs, h⟩ : s.toneStaging = [] ∨ (∃ a, s.toneStaging = [a]) ∨ (∃ a b, s.toneStaging = [a, b]) ∨
      ∃ a b c cs, s.toneStaging = a :: b :: c :: cs := by
    rcases s.toneStaging with _ | ⟨a, _ | ⟨b, _ | ⟨c, cs⟩⟩⟩ <;> simp
  all_goals
    have h' : (s.answer .control r bytes).toneStaging = _ := h
    unfold State.takeField
    rw [h, h']
    rfl

theorem State.takeFields_answer (s : State) (r : Result) (bytes : List Byte) (fields : List Word16) :
    fields.foldl State.takeField (s.answer .control r bytes) = (fields.foldl State.takeField s).answer .control r bytes := by
  induction fields generalizing s with
  | nil => rfl
  | cons f fields ih => rw [List.foldl_cons, State.takeField_answer, ih, List.foldl_cons]

theorem State.answer_answer (s : State) (k : Link) (r r' : Result) (as bs : List Byte) : (s.answer k r as).answer k r' bs = s.answer k r' bs := by
  cases k <;> rfl

/-- A division among requests with CONTINUE leaves what one request leaves (R106). -/
theorem State.writeFields_append (s : State) (start : Byte) (xs ys : List Word16) (r : Result) (bytes : List Byte) :
    ((s.writeFields start xs).answer .control r bytes).writeFields 0xFF ys = (s.writeFields start (xs ++ ys)).answer .control r bytes := by
  unfold State.writeFields
  rw [List.foldl_append]
  unfold State.startTones
  rw [if_pos rfl]
  exact State.takeFields_answer ..

theorem State.writeFields_kept (s : State) (start : Byte) (fields : List Word16) (r : Result) (bytes : List Byte) :
    ∃ tones cursor staging link, (s.writeFields start fields).answer .control r bytes =
      { s with tones := tones, toneCursor := cursor, toneStaging := staging, cLink := link } ∧ link.ignoring = s.cLink.ignoring := by
  obtain ⟨tones, cursor, staging, h⟩ := s.writeFields_eq start fields
  rw [h]
  exact ⟨_, _, _, _, rfl, rfl⟩

/-- Settles O13: a start index clears the staging record, three fields complete an entry, and a division is a `List.foldl` over an append. -/
theorem writeTonesWritesEntries : Obligations.WriteTonesWritesEntries := by
  refine ⟨fun s start a b c hs => ⟨fun hstart => ?_, fun count fields hstart hff => ?_, fun count fields hcount => ?_⟩,
    fun s start xs ys hs hstart hl => ?_⟩
  · have hok : toneStartOk start = true := by rw [toneStartOk, decide_eq_true hstart, Bool.true_or]
    have hne : start ≠ 0xFF := by rintro rfl; exact absurd hstart (by decide)
    rw [show (3 : Byte) = BitVec.ofNat 8 [a, b, c].length from rfl, hs.writeTones_all hok (by simp)]
    unfold State.writeFields State.startTones
    rw [if_neg hne]
    rfl
  · have hbad : toneStartOk start = false := by
      rw [toneStartOk, decide_eq_false (Nat.not_lt.mpr hstart), Bool.false_or, beq_eq_false_iff_ne]
      exact hff
    rw [hs.writeTones, hbad, Bool.false_and, if_pos (show (!false) = true from rfl)]
  · have hbad : toneCountOk count = false := decide_eq_false (Nat.not_le.mpr hcount)
    rw [hs.writeTones, hbad, Bool.and_false, if_pos (show (!false) = true from rfl)]
  · have hok : toneStartOk start = true := by
      obtain h | rfl := hstart
      · rw [toneStartOk, decide_eq_true h, Bool.true_or]
      · rfl
    obtain ⟨_, _, _, _, ht, hi⟩ := s.writeFields_kept start xs .ok
      [byte (s.writeFields start xs).toneCursor, byte (s.writeFields start xs).toneStaging.length]
    have hears : State.Hears ((s.writeFields start xs).answer .control .ok
        [byte (s.writeFields start xs).toneCursor, byte (s.writeFields start xs).toneStaging.length]) .control := by
      rw [ht]
      exact ⟨hs.1, hi.trans hs.2.1, (nomatch ·)⟩
    refine ⟨_, _, hs.writeTones_all hok (by omega), hears.writeTones_all rfl (by omega), ?_, ?_⟩
    · rw [← List.length_append, hs.writeTones_all hok (by rw [List.length_append]; exact hl), State.writeFields_append, State.answer_answer]
      rfl
    · rw [State.writeFields_append, State.answer_answer]
      obtain ⟨_, _, _, _, hu, -⟩ := s.writeFields_kept start (xs ++ ys) .ok _
      rw [hu]

end Tones

/-! ### WRITE PROGRAM -/

section Programs

variable {s t : State}

theorem RawSegment.segment_eq (g : RawSegment) : RawSegment.segment g = ⟨if g.tone.toNat < 32 then some g.tone.toNat else none, g.duration.toNat⟩ := by
  unfold RawSegment.segment toneOf
  split
  · rfl
  · split <;> rfl

theorem State.inUse_iff {r : Nat} : s.inUse r = true ↔ ∃ l, (s.line l).refersTo r = true := by
  unfold State.inUse
  rw [List.any_eq_true]
  exact ⟨fun ⟨l, _, h⟩ => ⟨l, h⟩, fun ⟨l, h⟩ => ⟨l, mem_four l, h⟩⟩

theorem State.Hears.writeProgram (hs : s.Hears .control) (record control repeats count : Byte) (segments : List RawSegment) :
    exec (.writeProgram record control repeats count segments) s = .next
      (if !segmentCountOk count then s.refuse .control .range
      else if segments.length < count.toNat then s.truncated .control
      else s.checked .control (writeProgramChecks s record (segments.take count.toNat))
        (({ s with programs := s.programs.set record.toNat (programRecord control repeats (segments.take count.toNat)) }).answer
          .control .ok [])) := by
  show execWriteProgram record control repeats count segments s = _
  unfold execWriteProgram
  rw [hs.takeControl]

/-- The checks of WRITE PROGRAM for values in range come down to the last (R109). -/
theorem writeProgramChecks_eq {record : Byte} {segments : List RawSegment} (hr : record.toNat ≤ 15)
    (hg : ∀ g ∈ segments, (g.tone.toNat < 32 ∨ g.tone = 0xFF) ∧ 1 ≤ g.duration.toNat ∧ g.duration.toNat ≤ 4000) :
    writeProgramChecks s record segments = [(true, .range), (true, .range), (true, .range), (!s.inUse record.toNat, .inUse)] := by
  have htone : segments.all RawSegment.toneOk = true := by
    refine List.all_eq_true.mpr fun g hmem => ?_
    unfold RawSegment.toneOk toneOf
    obtain h | h := (hg g hmem).1
    · rw [if_pos h]; rfl
    · rw [h]; rfl
  have hduration : segments.all RawSegment.durationOk = true := by
    refine List.all_eq_true.mpr fun g hmem => ?_
    unfold RawSegment.durationOk
    rw [decide_eq_true (hg g hmem).2.1, decide_eq_true (hg g hmem).2.2]
    rfl
  rw [writeProgramChecks, htone, hduration, decide_eq_true hr]

theorem Move.keeps_programs {c : Instr} (h : Move c s t) (hreset : NoReset c)
    (hc : ∀ record control repeats count segments, c ≠ .writeProgram record control repeats count segments) : t.programs = s.programs := by
  cases h with
  | reset low cFrame mFrame h => exact absurd h (hreset _ _ _)
  | link k => cases k <;> rfl
  | program record control repeats count segments gs h => exact absurd h (hc _ _ _ _ _)
  | tones start fields =>
    obtain ⟨_, _, _, ht⟩ := s.writeFields_eq start fields
    rw [ht]
  | _ => rfl

/-- A WRITE PROGRAM reaches no record that a context refers to (R109). -/
theorem writeProgram_keeps {record control repeats count : Byte} {segments : List RawSegment} {l : Fin 4} {r : Nat}
    (h : exec (.writeProgram record control repeats count segments) s = .next t) (hr : (s.line l).refersTo r = true) :
    t.programs.getD r ⟨.overlay, 0, false, []⟩ = s.programs.getD r ⟨.overlay, 0, false, []⟩ := by
  replace h : execWriteProgram record control repeats count segments s = .next t := h
  unfold execWriteProgram at h
  obtain ⟨-, rfl⟩ | ⟨-, -, rfl⟩ | ⟨-, -, rfl⟩ := State.takeControl_cases h
  · rfl
  · rfl
  · split
    · rfl
    · split
      · rfl
      · obtain ⟨hpass, h⟩ | ⟨x, -, h⟩ := State.checked_cases (s := s) (k := .control)
          (cs := writeProgramChecks s record (segments.take count.toNat))
          (u := ({ s with programs := s.programs.set record.toNat (programRecord control repeats (segments.take count.toNat)) } : State).answer
            .control .ok [])
        · rw [h]
          have hfree : (!s.inUse record.toNat) = true :=
            firstFailing_eq_none.mp hpass (!s.inUse record.toNat, .inUse) (by simp [writeProgramChecks])
          have hne : record.toNat ≠ r := by
            rintro rfl
            rw [State.inUse_iff.mpr ⟨l, hr⟩] at hfree
            cases hfree
          show List.getD (List.set _ _ _) _ _ = _
          rw [List.getD_eq_getElem?_getD, List.getElem?_set_ne hne, List.getD_eq_getElem?_getD]
        · rw [h]
          rfl

/-- Settles O14. -/
theorem writeProgramReplacesFreeRecord : Obligations.WriteProgramReplacesFreeRecord := by
  refine ⟨fun s record control repeats count segments hs hr hc hlen hg => ?_, fun c s t l r h hreset hr => ?_⟩
  · have hok : segmentCountOk count = true := decide_eq_true hc
    have hsegments : (segments.map RawSegment.segment) =
        segments.map fun g : RawSegment => ⟨if g.tone.toNat < 32 then some g.tone.toNat else none, g.duration.toNat⟩ :=
      congrArg (List.map · segments) (funext RawSegment.segment_eq)
    rw [hs.writeProgram, hok, if_neg (by decide), if_neg (by omega), List.take_of_length_le (Nat.le_of_eq hlen), writeProgramChecks_eq hr hg]
    refine ⟨fun hfree => ?_, fun huse => ?_⟩
    · have hfree : s.inUse record.toNat = false := Bool.eq_false_iff.mpr fun h => by
        obtain ⟨l, h⟩ := State.inUse_iff.mp h
        rw [hfree l] at h
        cases h
      rw [hfree, State.checked_pass rfl, programRecord, hsegments]
    · rw [State.inUse_iff.mpr huse, State.checked_fail rfl]
  · by_cases hc : ∃ record control repeats count segments, c = .writeProgram record control repeats count segments
    · obtain ⟨_, _, _, _, _, rfl⟩ := hc
      exact writeProgram_keeps h hr
    · have hprograms : t.programs = s.programs := (exec_moves h).keeps (P := fun u => u.programs = s.programs)
        (fun hm hs => (hm.keeps_programs hreset fun _ _ _ _ _ h => hc ⟨_, _, _, _, _, h⟩).trans hs) rfl
      rw [hprograms]

end Programs

end Sys2Proof.Machine
end

section
/-! The Media Link's requests about a line, the capture store, and the deposit buffer (R47 to R53, R85 to R90, R92 to R99, R176). -/

namespace Sys2Proof.Machine

/-! ### SET PLAYOUT -/

theorem clampNat_eq {lo hi : Nat} (h : lo ≤ hi) (n : Nat) : clampNat lo hi n = max lo (min hi n) := by
  unfold clampNat
  split
  · omega
  · split <;> omega

theorem Line.depthTop_eq (L : Line) : L.depthTop = (L.playRing.map fun e => e.len - 1).getD 255 := by
  unfold Line.depthTop
  cases L.playRing <;> rfl

theorem Line.thresholdTop_eq (L : Line) : L.thresholdTop = (L.capRing.map RingEntry.len).getD 64 := by
  unfold Line.thresholdTop
  cases L.capRing <;> rfl

theorem leadOf_eq (b : Byte) : (leadOf b).val = min 3 b.toNat := by
  unfold leadOf
  by_cases h : b.toNat < 4
  · rw [index4_of_lt h]
    show b.toNat = min 3 b.toNat
    omega
  · rw [index4_of_ge (by omega)]
    show 3 = min 3 b.toNat
    omega

/-- Settles O31. -/
theorem setPlayoutClampsValues : Obligations.SetPlayoutClampsValues := by
  intro s l line v hn hplay hcap
  obtain ⟨hline, hstore, hothers, hpart, hanswered, hevents⟩ :=
    State.replaced s s.store l ((s.line l).setPlayout v) .media .ok ((s.line l).setPlayout v).playoutBytes rfl
  have hdepth : 1 ≤ (s.line l).depthTop := by
    unfold Line.depthTop
    cases h : (s.line l).playRing with
    | none => exact (by decide : 1 ≤ 255)
    | some e => have := hplay e h; exact (by omega : 1 ≤ e.len - 1)
  have hthreshold : 1 ≤ (s.line l).thresholdTop := by
    unfold Line.thresholdTop
    cases h : (s.line l).capRing with
    | none => exact (by decide : 1 ≤ 64)
    | some e => exact hcap e h
  have hexec : exec (.setPlayout line v) s =
      .next (((s.setStore s.store).setLine l ((s.line l).setPlayout v)).answer .media .ok ((s.line l).setPlayout v).playoutBytes) := by
    show execSetPlayout line v s = _
    unfold execSetPlayout
    rw [hn.takeMedia]
    rfl
  refine ⟨_, hexec, ?_⟩
  beta_reduce
  rw [hline, ← Line.depthTop_eq, ← Line.thresholdTop_eq]
  refine ⟨clampNat_eq hdepth _, clampNat_eq hdepth _, ?_, rfl, ?_, ?_, clampNat_eq (by decide) _, ?_, rfl, rfl, leadOf_eq _, clampNat_eq hthreshold _,
    rfl, hanswered, hothers, hpart, hstore, hevents⟩
  · have := v.starve.isLt
    show clampNat 2 255 _ = _
    rw [clampNat_eq (by decide)]
    omega
  · show clampNat 0 10200 _ = _
    rw [clampNat_eq (by decide)]
    omega
  · show clampNat (clampNat 0 10200 _) 10200 _ = _
    rw [clampNat_eq (show 0 ≤ 10200 by decide), clampNat_eq (by omega)]
    omega
  · show clampNat 0 32767 _ = _
    rw [clampNat_eq (by decide)]
    omega

/-! ### REALIGN and READ AND CLEAR STATISTICS -/

section Realign

variable {s : State} {l : Fin 4} {line : Byte}

theorem State.Names.realignment (hn : s.Names .media line l) (slip : Byte) (clear : Bool) : s.realign line slip clear =
    if (s.line l).enabled then
      (if clear then (s.setStore (s.store.emptyRing (s.line l))).setLine l ((s.line l).addSlip slip).clear
        else (s.setStore s.store).setLine l ((s.line l).addSlip slip)).answer .media .ok [int1 ((s.line l).addSlip slip).pendingSlip]
    else s.refuse .media .state := by
  unfold State.realign
  rw [State.withLine_of_eq hn.2]
  rfl

theorem State.Names.realign (hn : s.Names .media line l) (slip control : Byte) :
    exec (.realign line slip control) s = .next (s.realign line slip (control.getLsbD 0)) := by
  show execRealign line slip control s = _
  unfold execRealign
  rw [hn.1.takeMedia]

theorem State.Names.realignWithClear (hn : s.Names .media line l) (slip control : Byte) :
    exec (.realignWithClear line slip control) s = .next (s.realign line slip true) := by
  show execRealignWithClear line slip control s = _
  unfold execRealignWithClear
  rw [hn.1.takeMedia]

theorem Line.addSlip_pendingSlip (L : Line) (slip : Byte) :
    (L.addSlip slip).pendingSlip = max (-40) (min 40 (L.pendingSlip + max (-40) (min 40 slip.toInt))) := by
  rw [Line.addSlip, slipOf, clampSlip_eq, clampSlip_eq]

/-- Settles O32. -/
theorem realignAndStatisticsRequests : Obligations.RealignAndStatisticsRequests := by
  refine ⟨fun s l line slip control hn => ⟨fun he => ?_, fun hc => ?_, fun he hc => ?_, fun p he hp hst => ?_⟩, fun s l line hn => ?_⟩
  · have hoff : ¬(s.line l).enabled = true := by rw [he]; exact Bool.false_ne_true
    rw [hn.realign, hn.realignWithClear, hn.realignment, hn.realignment, if_neg hoff, if_neg hoff]
    exact ⟨rfl, rfl⟩
  · rw [hn.realign, hn.realignWithClear, hc]
  · refine ⟨_, hn.realign slip control, ?_⟩
    beta_reduce
    rw [hn.realignment, if_pos he, hc, if_neg Bool.false_ne_true]
    obtain ⟨hline, hstore, hothers, hpart, hanswered, hevents⟩ :=
      State.replaced s s.store l ((s.line l).addSlip slip) .media .ok [int1 ((s.line l).addSlip slip).pendingSlip] rfl
    rw [hline]
    exact ⟨Line.addSlip_pendingSlip _ _, rfl, hstore, hanswered, hothers, hpart, hevents⟩
  · refine ⟨_, hn.realignWithClear slip control, ?_⟩
    beta_reduce
    rw [hn.realignment, if_pos he, if_pos rfl]
    obtain ⟨hline, hstore, hothers, hpart, hanswered, hevents⟩ :=
      State.replaced s _ l ((s.line l).addSlip slip).clear .media .ok [int1 ((s.line l).addSlip slip).pendingSlip] rfl
    rw [hline, hstore]
    exact ⟨Line.addSlip_pendingSlip _ _, rfl, fun a => Store.read_emptyRing hst hp a, hanswered, hothers, hpart, hevents⟩
  · show execReadAndClearStatistics line s = _
    unfold execReadAndClearStatistics
    rw [hn.takeMedia]
    rfl

end Realign

/-! ### CAPTURE READ -/

section CaptureRead

variable {s : State} {l : Fin 4} {line : Byte}

theorem State.Names.captureRead (hn : s.Names .media line l) (maximum : Byte) : exec (.captureRead line maximum) s = .next
    (s.checked .media [ (decide (1 ≤ maximum.toNat) && decide (maximum.toNat ≤ 8), .range), ((s.line l).enabled, .state) ]
      (((s.setStore s.store).setLine l ((s.line l).readOut (min maximum.toNat (s.line l).unread))).answer .media .ok
        (byte (min maximum.toNat (s.line l).unread) :: (s.oldest l (min maximum.toNat (s.line l).unread)).flatMap recordBytes))) := by
  show execCaptureRead line maximum s = _
  unfold execCaptureRead
  rw [hn.takeMedia]
  rfl

theorem State.oldest_bytes (s : State) (l : Fin 4) (r : Nat) {c : RingEntry} (hc : (s.line l).capRing = some c) :
    (s.oldest l r).flatMap recordBytes =
      (List.range r).flatMap fun k => recordBytes (s.store.read (c.base + ((s.line l).capRead + k) % c.len)) := by
  unfold State.oldest
  dsimp only
  rw [List.flatMap_map, Line.capBase_of_ring hc, Line.lc_of_ring hc]

theorem recordBytes_of_capture {c : StoreCell} {i : CaptureInfo} (h : c.info = .capture i) :
    recordBytes c = bytes4 i.stamp ++ bytes4 i.reference ++
      [classByte i.cls, (if i.offhook then 1 else 0) + (if i.signalling then 2 else 0) + (if i.fax then 4 else 0)] ++
      c.samples.flatMap fun x => [x.extractLsb' 8 8, x.extractLsb' 0 8] := by
  have hinfo : c.captureInfo = i := by rw [StoreCell.captureInfo, h]
  have hclass : i.cls.byte = classByte i.cls := by cases i.cls <;> rfl
  rw [recordBytes, hinfo, hclass]
  rfl

theorem recordBytes_length {c : StoreCell} (h : c.samples.length = 40) : (recordBytes c).length = 90 := by
  have hsamples : (c.samples.flatMap bytes2).length = 2 * c.samples.length := by
    rw [List.length_flatMap]
    simp [bytes2, Nat.mul_comm]
  rw [recordBytes, List.length_append, hsamples, h]
  rfl

/-- Settles O39. -/
theorem captureReadReturnsOldest : Obligations.CaptureReadReturnsOldest := by
  intro s l line maximum c hn hc
  refine ⟨fun hbad => ?_, fun h1 h8 he => ?_, fun h1 h8 he => ⟨_, hn.captureRead maximum, ?_⟩⟩
  · have hcheck : (decide (1 ≤ maximum.toNat) && decide (maximum.toNat ≤ 8)) = false := by
      rw [Bool.and_eq_false_iff, decide_eq_false_iff_not, decide_eq_false_iff_not]
      omega
    rw [hn.captureRead, hcheck, State.checked_fail rfl]
  · rw [hn.captureRead, decide_eq_true h1, decide_eq_true h8, he, State.checked_fail rfl]
  · beta_reduce
    rw [decide_eq_true h1, decide_eq_true h8, he, State.checked_pass rfl]
    obtain ⟨hline, hstore, hothers, hpart, hanswered, hevents⟩ := State.replaced s s.store l
      ((s.line l).readOut (min maximum.toNat (s.line l).unread)) .media .ok
      (byte (min maximum.toNat (s.line l).unread) :: (s.oldest l (min maximum.toNat (s.line l).unread)).flatMap recordBytes) rfl
    rw [State.oldest_bytes s l _ hc] at hanswered
    have hresponse := congrArg LinkState.response hanswered.1
    rw [State.oldest_bytes s l _ hc]
    rw [State.oldest_bytes s l _ hc] at hline hstore hothers hpart hevents
    refine ⟨?_, hanswered, fun info hinfo => ?_, fun hlen => ?_, hothers, hpart, hstore, hevents⟩
    · rw [hline, Line.readOut, Line.lc_of_ring hc]
    · rw [Line.capBase_of_ring hc, Line.lc_of_ring hc] at hinfo
      refine hresponse.trans (congrArg (0 :: byte _ :: ·) (List.flatMap_congr fun k hk => ?_))
      rw [List.mem_range] at hk
      exact recordBytes_of_capture (hinfo k (by omega))
    · refine (congrArg List.length hresponse).trans ?_
      show (_ :: _ :: List.flatMap _ _).length = _
      rw [List.length_cons, List.length_cons, List.length_flatMap]
      simp only [recordBytes_length (hlen _)]
      simp
      omega

end CaptureRead

/-! ### CAPTURE STORE -/

section CaptureStore

variable {s : State} {l : Fin 4}

theorem Line.captureDue_iff {L : Line} : L.captureDue = true ↔ L.enabled = true ∧ L.started = true ∧ L.due.capture = true := by
  simp [Line.captureDue, and_assoc]

theorem Line.stored_room {L : Line} {c : RingEntry} (hc : L.capRing = some c) (h : L.unread < c.len) :
    L.stored = { L with capWrite := (L.capWrite + 1) % c.len, unread := L.unread + 1 } := by
  rw [Line.stored, Line.lc_of_ring hc, if_pos h]

theorem Line.stored_full {L : Line} {c : RingEntry} (hc : L.capRing = some c) (h : c.len ≤ L.unread) :
    L.stored = { L with
      capWrite := (L.capWrite + 1) % c.len, capRead := (L.capRead + 1) % c.len
      stats := { L.stats with overruns := if L.stats.overruns < 65535 then L.stats.overruns + 1 else 65535 } } := by
  rw [Line.stored, Line.lc_of_ring hc, if_neg (Nat.not_lt.mpr h)]
  rfl

theorem IrqOut.owe_pulse {i : IrqOut} {top : Nat} (h : i.mode = .pulse) : i.owe top = { i with owed := countUp top i.owed } := by
  unfold IrqOut.owe
  rw [h]

theorem IrqOut.owe_level {i : IrqOut} {top : Nat} (h : i.mode = .level) : i.owe top = i := by
  unfold IrqOut.owe
  rw [h]

/-- What the Media Link is after a store: a pulse may be owed (R103). -/
def Line.storedLink (L : Line) (m : LinkState) : LinkState := if L.owesPulse then { m with irq := m.irq.owe 4 } else m

theorem exec_captureStore (hl : s.resetLow = false) (hd : (s.line l).captureDue = true) : exec (.captureStore l) s = .next
    { (s.setStore (s.store.write (s.line l).writePlace ((s.line l).captureRecord s.programs (s.g - 1)))).setLine l
        { (s.line l).stored with due := { (s.line l).due with capture := false } } with mLink := (s.line l).storedLink s.mLink } := by
  have hstep : s.captureStep l = s.storeCapture l := if_pos hd
  refine (State.next_high hl).trans (congrArg Host.Outcome.next (hstep.trans ?_))
  unfold State.storeCapture Line.storedLink
  dsimp only
  split <;> rfl

/-- Settles O38. -/
theorem captureStoreWritesRecord : Obligations.CaptureStoreWritesRecord := by
  intro s l c hl hd hst hc hfit hw
  obtain ⟨he, hs, -⟩ := Line.captureDue_iff.mp hd
  have hplace : (s.line l).writePlace = c.base + (s.line l).capWrite := by rw [Line.writePlace, Line.capBase_of_ring hc]
  have hread (a : Nat) : (s.store.write (s.line l).writePlace ((s.line l).captureRecord s.programs (s.g - 1))).read a =
      if a = c.base + (s.line l).capWrite then (s.line l).captureRecord s.programs (s.g - 1) else s.store.read a := by
    rw [hplace, Store.read_write _ _ hst (by omega)]
  have hhook : (s.line l).hookDue = (s.line l).due.hook := by rw [Line.hookDue, he, hs]; rfl
  refine ⟨_, exec_captureStore hl hd, ⟨(s.line l).offHookAfterStep s.programs, ?_, fun hh => ?_, fun hh => ?_⟩, fun a ha => ?_, fun hu => ?_,
    fun hu => ?_, fun hu ht hm => ?_, fun h => ?_, fun k hk => ?_, ⟨rfl, rfl, rfl, rfl, rfl, rfl, rfl, rfl, rfl, rfl, rfl, rfl, rfl, rfl⟩, rfl, rfl⟩
  · exact (hread _).trans (if_pos rfl)
  · rw [Line.offHookAfterStep, hhook, hh, if_neg Bool.false_ne_true]
  · rw [Line.offHookAfterStep, hhook, hh, if_pos rfl]
  · exact (hread a).trans (if_neg ha)
  · exact (State.line_setLine_same ..).trans (by rw [Line.stored_room hc hu])
  · exact (State.line_setLine_same ..).trans (by rw [Line.stored_full hc hu])
  · have howes : (s.line l).owesPulse = true := by
      rw [Line.owesPulse, Line.lc_of_ring hc, decide_eq_true hu, ht, beq_self_eq_true, Bool.and_self]
    show (s.line l).storedLink s.mLink = _
    rw [Line.storedLink, if_pos howes, IrqOut.owe_pulse hm]
    rfl
  · show (s.line l).storedLink s.mLink = _
    unfold Line.storedLink
    split
    next howes =>
      simp only [Line.owesPulse, Line.lc_of_ring hc, Bool.and_eq_true, decide_eq_true_eq, beq_iff_eq] at howes
      obtain h | h | h := h
      · exact absurd howes.2 h
      · omega
      · rw [IrqOut.owe_level h]
    · rfl
  · exact State.line_setLine_ne _ _ hk

end CaptureStore

/-! ### The deposit buffer -/

section Deposits

variable {s : State}

theorem State.Hears.openDeposit_bound (hm : s.Hears .media) {mask source : Byte} {m : Fin 4} (hmask : maskOk mask = true)
    (hsource : source.toNat = m.val) (time : Word32) (control gain : Byte) : exec (.openDeposit mask source time control gain) s = .next
      (((if s.deposit.isSome then s.setSequence else s).setDeposit (some (Deposit.opened mask m time control gain))).answer .media .ok
        [flag s.deposit.isSome]) := by
  show execOpenDeposit mask source time control gain s = _
  unfold execOpenDeposit
  rw [hm.takeMedia, if_pos hmask, index4_of_eq hsource]

theorem State.Hears.openDeposit_refused (hm : s.Hears .media) {mask source : Byte} (h : maskOk mask = false ∨ 4 ≤ source.toNat)
    (time : Word32) (control gain : Byte) : exec (.openDeposit mask source time control gain) s = .next (s.refuse .media .range) := by
  show execOpenDeposit mask source time control gain s = _
  unfold execOpenDeposit
  rw [hm.takeMedia]
  by_cases hmask : maskOk mask = true
  · obtain h | h := h
    · exact absurd (hmask.symm.trans h) Bool.noConfusion
    · rw [if_pos hmask, index4_of_ge h]
  · rw [if_neg hmask]

theorem gainOf_eq (gain : Byte) :
    gainOf gain = if gain.toNat % 16 < 8 then min (gain.toNat % 16 : Int) 3 else (gain.toNat % 16 : Int) - 16 := by
  have hlow : (gain.extractLsb' 0 4).toNat = gain.toNat % 16 := by
    rw [BitVec.extractLsb'_toNat, Nat.shiftRight_zero]
  have hbound : gain.toNat % 16 < 16 := Nat.mod_lt _ (by decide)
  unfold gainOf clampInt
  rw [BitVec.toInt_eq_toNat_cond, hlow]
  split <;> split <;> omega

theorem cells_eq (control : Byte) : (control.extractLsb' 5 3).toNat + 1 = control.toNat / 32 + 1 := by
  have := control.isLt
  rw [BitVec.extractLsb'_toNat, Nat.shiftRight_eq_div_pow]
  omega

theorem maskOk_iff {mask : Byte} : maskOk mask = true ↔ 1 ≤ mask.toNat ∧ mask.toNat ≤ 15 := by simp [maskOk]

theorem State.Hears.depositData (hm : s.Hears .media) (count : Word16) (samples : List Sample) :
    exec (.depositData count samples) s = .next
      (if !dataCountOk count then s.refuse .media .range
      else if samples.length < count.toNat then (s.breakDeposit).truncated .media
      else s.receiveData (samples.take count.toNat)) := by
  show execDepositData count samples s = _
  unfold execDepositData
  rw [hm.takeMedia]

theorem Deposit.append_fits {d : Deposit} {samples : List Sample} (hb : d.broken = false)
    (h : d.samples.length + samples.length ≤ 40 * d.cells) : d.append samples = { d with samples := d.samples ++ samples } := by
  have hroom : d.room = 40 * d.cells := rfl
  unfold Deposit.append
  rw [List.take_of_length_le (by omega), decide_eq_false (by omega), ← hb]

theorem Deposit.append_over {d : Deposit} {samples : List Sample} (h : 40 * d.cells < d.samples.length + samples.length) :
    d.append samples = { d with samples := d.samples ++ samples.take (40 * d.cells - d.samples.length), broken := true } := by
  unfold Deposit.append
  rw [decide_eq_true (show d.room < d.samples.length + samples.length from h)]
  rfl

theorem State.Hears.commitDeposit (hm : s.Hears .media) (n : Nat) : exec (.commitDeposit n) s = .next (s.beginCommit.advance n) := by
  show execCommitDeposit s n = _
  unfold execCommitDeposit
  rw [State.goesOn_idle (hm.2.2 rfl), if_neg Bool.false_ne_true, hm.takeMedia]

/-- Settles O23. -/
theorem depositRequestsFillTheBuffer : Obligations.DepositRequestsFillTheBuffer := by
  intro s hm
  have hidle {t : State} (ht : t.job = s.job) (n : Nat) : t.advance n = t := State.advance_idle (ht.trans (hm.2.2 rfl))
  refine ⟨fun mask source time control gain => ⟨fun m hsource h1 h15 => ?_, fun hbad => ?_⟩,
    fun count samples => ⟨fun hbad => ?_, fun h1 h320 hlen => ?_⟩, fun n => ⟨fun hd => ?_, fun d hd hb => ?_, fun d hd hb hshort => ?_⟩⟩
  · rw [hm.openDeposit_bound (maskOk_iff.mpr ⟨h1, h15⟩) hsource]
    unfold Deposit.opened
    rw [gainOf_eq, cells_eq]
    cases s.deposit with
    | none => simp [State.setDeposit, State.answer, State.setLink, flag, maskOf, mixOf, Result.byte, State.link]
    | some d => simp [State.setDeposit, State.setSequence, State.answer, State.setLink, flag, maskOf, mixOf, Result.byte, State.link]
  · refine hm.openDeposit_refused ?_ time control gain
    rw [← Bool.not_eq_true, maskOk_iff]
    omega
  · have hcount : dataCountOk count = false := by
      rw [dataCountOk, Bool.and_eq_false_iff, decide_eq_false_iff_not, decide_eq_false_iff_not]
      omega
    rw [hm.depositData, hcount, if_pos (show (!false) = true from rfl)]
  · have hcount : dataCountOk count = true := by rw [dataCountOk, decide_eq_true h1, decide_eq_true h320]; rfl
    rw [hm.depositData, hcount, if_neg (by decide), if_neg (by omega), List.take_of_length_le (Nat.le_of_eq hlen)]
    refine ⟨fun d hd hb hroom => ⟨fun hfit => ?_, fun hover => ?_⟩, fun hd => ?_, fun d hd hb => ?_⟩
    · rw [State.receiveData, hd]
      dsimp only
      rw [if_neg (by rw [hb]; exact Bool.false_ne_true), Deposit.append_fits hb hfit, if_neg (by rw [hb]; exact Bool.false_ne_true),
        List.length_append]
    · rw [State.receiveData, hd]
      dsimp only
      rw [if_neg (by rw [hb]; exact Bool.false_ne_true), Deposit.append_over hover, if_pos rfl, List.length_append, List.length_take]
      have htotal : d.samples.length + min (40 * d.cells - d.samples.length) samples.length = 40 * d.cells := by omega
      rw [htotal]
    · rw [State.receiveData, hd]
      rfl
    · rw [State.receiveData, hd]
      dsimp only
      rw [if_pos hb]
  · rw [hm.commitDeposit, State.beginCommit, hd]
    exact congrArg Host.Outcome.next (hidle (t := s.setSequence.answer .media .sequence []) rfl n)
  · rw [hm.commitDeposit, State.beginCommit, hd]
    dsimp only
    rw [if_pos hb]
    exact congrArg Host.Outcome.next (hidle (t := (s.setDeposit none).setSequence.answer .media .sequence []) rfl n)
  · rw [hm.commitDeposit, State.beginCommit, hd]
    dsimp only
    rw [if_neg (by rw [hb]; exact Bool.false_ne_true), if_pos (show d.samples.length < d.room from hshort)]
    exact congrArg Host.Outcome.next (hidle (t := (s.setDeposit none).answer .media .short []) rfl n)

end Deposits

end Sys2Proof.Machine
end

section
/-! The requests about signals, caller identification and ringing, and the turns of the Ring Controller (R94, R113 to R120, R127, R133 to R137,
R152 to R156). -/

namespace Sys2Proof.Machine

/-! ### Answers, room and marks -/

theorem Answers.mono {c : Instr} {s : State} {P Q : State → Prop} (h : Answers c s P) (hPQ : ∀ t, P t → Q t) : Answers c s Q := by
  obtain ⟨t, ht, hP⟩ := h
  exact ⟨t, ht, hPQ t hP⟩

theorem State.Room.mono {s : State} {n m : Nat} (h : s.Room n) (hm : m ≤ n) : s.Room m := ⟨h.1, by have := h.2; omega⟩

theorem recordOf_plain {es : List Event} (h : Plain es) (l : Fin 4) (stamp : Word32) : ∀ e ∈ es, (recordOf l stamp e).isOverflow = false :=
  fun e he => isOverflow_of_plain (h e he)

theorem Line.backgroundMarks_iff {L : Line} : L.backgroundMarks = true ↔ L.Marking .background := by
  unfold Line.backgroundMarks Line.Marking
  cases L.background <;> simp [Context.mutes]

theorem Line.foregroundMarks_iff {L : Line} : L.foregroundMarks = true ↔ L.Marking .foreground := by
  have halert (c : Context) : c.isAlert = true ↔ ∃ r, c.kind = .offHookCid r := by
    unfold Context.isAlert
    cases c.kind <;> simp
  unfold Line.foregroundMarks Line.Marking
  cases L.foreground <;> simp [Context.mutes, halert]

/-- An event that touches the mark sets it by R94. -/
theorem Line.markRule_touchMark {L M : Line} (hm : M.mark = L.mark) : L.MarkRule (L.touchMark M) := by
  have hf : (L.touchMark M).Marking .foreground ↔ M.foregroundMarks = true := Line.foregroundMarks_iff.symm
  have hb : (L.touchMark M).Marking .background ↔ M.backgroundMarks = true := Line.backgroundMarks_iff.symm
  have hexists : (∃ v, ¬(L.Marking v ↔ (L.touchMark M).Marking v)) ↔
      ¬(L.Marking .foreground ↔ (L.touchMark M).Marking .foreground) ∨ ¬(L.Marking .background ↔ (L.touchMark M).Marking .background) :=
    ⟨fun ⟨v, h⟩ => by cases v <;> simp [h], fun h => h.elim (fun h => ⟨_, h⟩) fun h => ⟨_, h⟩⟩
  unfold Line.MarkRule
  rw [hexists, hf, hb, ← Line.foregroundMarks_iff, ← Line.backgroundMarks_iff]
  show (M.mark || L.foregroundMarks != M.foregroundMarks || L.backgroundMarks != M.backgroundMarks) = true ↔ _
  rw [hm]
  cases L.mark <;> cases L.foregroundMarks <;> cases M.foregroundMarks <;> cases L.backgroundMarks <;> cases M.backgroundMarks <;> decide

/-- An event that changes no context leaves the mark. -/
theorem Line.touchMark_same {L M : Line} (hf : M.foreground = L.foreground) (hb : M.background = L.background) : L.touchMark M = M := by
  have hfm : M.foregroundMarks = L.foregroundMarks := by rw [Line.foregroundMarks, hf]; rfl
  have hbm : M.backgroundMarks = L.backgroundMarks := by rw [Line.backgroundMarks, hb]; rfl
  rw [Line.touchMark, hfm, hbm, bne_self_eq_false, bne_self_eq_false, Bool.or_false, Bool.or_false]

/-! ### A Control Link request on a line -/

section Requests

variable {s : State} {l : Fin 4} {line : Byte}

/-- A request that changes a line, queues records and answers. -/
theorem State.Room.request {c : Instr} {r : LineStep} {fields : List Byte} (hroom : s.Room r.2.length) (hp : Plain r.2)
    (hexec : exec c s = .next ((s.commitLine l s.g r).answer .control .ok fields)) :
    Answers c s fun t => t.line l = r.1 ∧ s.LineRequest t l r.2 (0 :: fields) := by
  obtain ⟨hline, hothers, hpart, hstore, hevents, hlink, hlevel, hpulse, hmedia⟩ := hroom.commitLine (l := l) (stamp := s.g) (recordOf_plain hp l s.g)
  refine ⟨_, hexec, hline, hothers, hpart.answer .control .ok fields, hstore, hevents, ?_, hlevel, hpulse, hmedia⟩
  exact congrArg (fun x : LinkState => { x with response := 0 :: fields }) hlink

/-- A request that changes a line and answers. -/
theorem State.request_line {c : Instr} {L : Line} {fields : List Byte} (hexec : exec c s = .next ((s.setLine l L).answer .control .ok fields)) :
    Answers c s fun t => t.line l = L ∧ s.LineRequest t l [] (0 :: fields) := by
  refine ⟨_, hexec, State.line_setLine_same .., fun k hk => State.line_setLine_ne _ _ hk, (State.PartKept.refl.setLine l L).answer ..,
    rfl, (List.append_nil _).symm, rfl, fun _ => rfl, fun _ _ => rfl, rfl⟩

/-! ### START SIGNAL and STOP SIGNAL -/

theorem State.Names.startSignal (hn : s.Names .control line l) {level : Byte} {v : Level} (hv : levelOf level = some v) (record : Byte) :
    exec (.startSignal line record level) s = .next (s.checked .control (startSignalChecks s (s.line l) record v)
      ((s.commitLine l s.g ((s.line l).startContext record.toNat (programAt s.programs record.toNat) v)).answer .control .ok
        [((s.line l).startState v).byte])) := by
  show execStartSignal line record level s = _
  unfold execStartSignal
  rw [hn.takeControl, hv]

/-- The checks of START SIGNAL come down to the last (R113). -/
theorem startSignalChecks_eq {record : Byte} {v : Level} (hr : record.toNat ≤ 15) (hp : (programAt s.programs record.toNat).segments ≠ [])
    (he : (s.line l).enabled = true) (hm : (s.line l).mode = .voice) : startSignalChecks s (s.line l) record v =
      [(true, .range), (true, .range), (true, .state), (true, .faxMode),
        (v == .background || ((s.line l).foreground.isNone && !(s.line l).ring.holdsCid), .busy)] := by
  have hsegments : (!(programAt s.programs record.toNat).segments.isEmpty) = true := by
    rw [Bool.not_eq_true', List.isEmpty_eq_false_iff]
    exact hp
  rw [startSignalChecks, decide_eq_true hr, hsegments, he, hm]
  rfl

theorem State.Names.stopSignal_none (hn : s.Names .control line l) {level : Byte} {v : Level} (hv : levelOf level = some v)
    (hc : (s.line l).contextAt v = none) : exec (.stopSignal line level) s = .next (s.refuse .control .none) := by
  show execStopSignal line level s = _
  unfold execStopSignal
  rw [hn.takeControl, hv]
  dsimp only
  rw [hc]

theorem State.Names.stopSignal_program (hn : s.Names .control line l) {level : Byte} {v : Level} (hv : levelOf level = some v)
    {st : CtxState} {m : OutputMode} {r : Nat} {run : ProgramRun} (hc : (s.line l).contextAt v = some ⟨st, m, .program r run⟩) :
    exec (.stopSignal line level) s = .next ((s.commitLine l s.g ((s.line l).stopProgram v)).answer .control .ok []) := by
  show execStopSignal line level s = _
  unfold execStopSignal
  rw [hn.takeControl, hv]
  dsimp only
  rw [hc]

theorem State.Names.stopSignal_alert (hn : s.Names .control line l) {level : Byte} {v : Level} (hv : levelOf level = some v)
    {st : CtxState} {m : OutputMode} {a : AlertRun} (hc : (s.line l).contextAt v = some ⟨st, m, .offHookCid a⟩) :
    exec (.stopSignal line level) s = .next ((s.commitLine l s.g (s.line l).stopAlert).answer .control .ok []) := by
  show execStopSignal line level s = _
  unfold execStopSignal
  rw [hn.takeControl, hv]
  dsimp only
  rw [hc]

theorem State.Names.stopSignal_busy (hn : s.Names .control line l) {level : Byte} {v : Level} (hv : levelOf level = some v)
    {st : CtxState} {m : OutputMode} {f : Option Fsk} (hc : (s.line l).contextAt v = some ⟨st, m, .onHookCid f⟩) :
    exec (.stopSignal line level) s = .next (s.refuse .control .busy) := by
  show execStopSignal line level s = _
  unfold execStopSignal
  rw [hn.takeControl, hv]
  dsimp only
  rw [hc]

/-- The mark after a background takes the place of the one held (R94, R114). -/
theorem Line.mark_startBackground (L : Line) (record : Nat) (p : ProgramRecord) :
    (L.startContext record p .background).1.mark = true ↔
      L.mark = true ∨ L.Marking .background ∨ (L.startContext record p .background).1.Marking .background := by
  rw [← Line.backgroundMarks_iff, ← Line.backgroundMarks_iff]
  unfold Line.startContext
  dsimp only
  generalize Context.ofProgram record p (L.startState .background) = c
  have hf : (L.touchMark L.dropBackground).foregroundMarks = L.foregroundMarks := rfl
  have hg : ({ L.touchMark L.dropBackground with background := some c } : Line).foregroundMarks = L.foregroundMarks := rfl
  show (L.mark || L.foregroundMarks != L.foregroundMarks || L.backgroundMarks != false || L.foregroundMarks != L.foregroundMarks ||
    false != c.mutes) = true ↔ L.mark = true ∨ L.backgroundMarks = true ∨ c.mutes = true
  cases L.mark <;> cases L.foregroundMarks <;> cases L.backgroundMarks <;> cases c.mutes <;> decide

/-- Settles O15. -/
theorem signalRequestsCreateAndRemoveContexts : Obligations.SignalRequestsCreateAndRemoveContexts := by
  refine ⟨fun s l line record hn hr hp he hm hroom => ⟨?_, fun hf hc => ?_, fun hbusy => ?_⟩,
    fun s l line hn hroom => ⟨fun hb => hn.stopSignal_none rfl hb, fun hf => hn.stopSignal_none rfl hf, fun st m r run hb => ?_,
      fun st m r run hf => ?_, fun st m a hf => ?_, fun st m f hf => hn.stopSignal_busy rfl hf⟩⟩
  · have hexec := hn.startSignal (level := 0) (v := .background) rfl record
    rw [startSignalChecks_eq hr hp he hm, State.checked_pass rfl] at hexec
    have hlist : ((s.line l).startContext record.toNat (programAt s.programs record.toNat) .background).2 =
        if (s.line l).background = none then [] else [.signalCancelled .background .replaced] := by
      unfold Line.startContext
      cases (s.line l).background <;> rfl
    have hstate : (s.line l).startState .background = if (s.line l).foreground = none then .active else .suspended := by
      unfold Line.startState
      cases (s.line l).foreground <;> rfl
    have hbyte : ((s.line l).startState .background).byte = if (s.line l).foreground = none then 1 else 2 := by
      rw [hstate]
      split <;> rfl
    refine (State.Room.request ?_ ?_ hexec).mono ?_
    · rw [hlist]
      split
      · exact hroom.mono (Nat.zero_le 1)
      · exact hroom
    · rw [hlist]
      split <;> simp [Event.plain]
    · rw [hlist, hbyte]
      rintro t ⟨hline, hrequest⟩
      refine ⟨.idle, ?_, ?_, hrequest⟩
      · rw [hline, ← hstate]
        rfl
      · rw [hline]
        exact Line.mark_startBackground ..
  · have hexec := hn.startSignal (level := 1) (v := .foreground) rfl record
    rw [startSignalChecks_eq hr hp he hm, hf, hc, State.checked_pass rfl] at hexec
    refine (State.Room.request (r := (s.line l).startContext _ _ .foreground) (hroom.mono (Nat.zero_le 1)) plain_nil hexec).mono ?_
    rintro t ⟨hline, hrequest⟩
    refine ⟨.idle, ?_, ?_, hrequest⟩
    · rw [hline]
      rfl
    · rw [hline]
      exact Line.markRule_touchMark rfl
  · have hlast : ((s.line l).foreground.isNone && !(s.line l).ring.holdsCid) = false := by
      obtain h | h := hbusy
      · rw [Option.isNone_eq_false_iff.mpr (Option.isSome_iff_ne_none.mpr h), Bool.false_and]
      · rw [h, Bool.not_true, Bool.and_false]
    rw [hn.startSignal (v := .foreground) rfl, startSignalChecks_eq hr hp he hm, hlast, State.checked_fail rfl]
  · refine (State.Room.request (r := (s.line l).stopProgram .background) hroom (plain_cons.mpr ⟨rfl, plain_nil⟩)
      (hn.stopSignal_program rfl hb)).mono ?_
    rintro t ⟨hline, hrequest⟩
    rw [hline]
    exact ⟨rfl, Line.markRule_touchMark rfl, hrequest⟩
  · refine (State.Room.request (r := (s.line l).stopProgram .foreground) hroom (plain_cons.mpr ⟨rfl, plain_nil⟩)
      (hn.stopSignal_program rfl hf)).mono ?_
    rintro t ⟨hline, hrequest⟩
    rw [hline]
    exact ⟨rfl, Line.markRule_touchMark rfl, hrequest⟩
  · refine (State.Room.request (r := (s.line l).stopAlert) hroom (plain_cons.mpr ⟨rfl, plain_nil⟩)
      (hn.stopSignal_alert (v := .foreground) rfl hf)).mono ?_
    rintro t ⟨hline, hrequest⟩
    rw [hline]
    exact ⟨rfl, Line.markRule_touchMark rfl, hrequest⟩

/-! ### LOAD CID and CID ALERT -/

theorem State.Names.loadCid (hn : s.Names .control line l) {type length : Byte} {payload : List Byte} (hl : length.toNat ≤ 60)
    (hp : payload.length = length.toNat) : exec (.loadCid line type length payload) s = .next
      (s.checked .control [ ((s.line l).enabled, .state), (!(s.line l).cid.inUse, .inUse) ]
        ((s.setLine l ((s.line l).loadMessage (CidMessage.of type payload))).answer .control .ok [cidChecksum type payload])) := by
  have hok : cidLengthOk length = true := decide_eq_true hl
  show execLoadCid line type length payload s = _
  unfold execLoadCid
  rw [hn.1.takeControl, hok, if_neg (by decide), if_neg (by omega), State.withLine_of_eq hn.2, List.take_of_length_le (Nat.le_of_eq hp)]

theorem toNat_foldl_add (bs : List Byte) (b : Byte) : (bs.foldl (· + ·) b).toNat = (b.toNat + (bs.map BitVec.toNat).sum) % 256 := by
  induction bs generalizing b with
  | nil => simp [Nat.mod_eq_of_lt b.isLt]
  | cons x bs ih =>
    rw [List.foldl_cons, ih, BitVec.toNat_add, List.map_cons, List.sum_cons]
    omega

/-- The checksum makes the sum of all bytes a multiple of 256 (R127). -/
theorem cidChecksum_sum (type : Byte) (payload : List Byte) :
    (type.toNat + payload.length + (payload.map BitVec.toNat).sum + (cidChecksum type payload).toNat) % 256 = 0 := by
  have hfold := toNat_foldl_add payload 0
  unfold cidChecksum byte
  rw [BitVec.toNat_sub, BitVec.toNat_add, BitVec.toNat_add, hfold, BitVec.toNat_ofNat]
  omega

theorem Line.loadMessage_free {L : Line} {m : CidMessage} (h : L.cid.inUse = false) : L.loadMessage m = { L with cid := ⟨some m, false⟩ } :=
  congrArg (fun b => { L with cid := ⟨some m, b⟩ }) h

theorem State.Names.cidAlert (hn : s.Names .control line l) (entry : Byte) : exec (.cidAlert line entry) s = .next
    (s.checked .control (cidAlertChecks (s.line l) entry) ((s.setLine l ((s.line l).startAlert entry.toNat)).answer .control .ok [])) := by
  show execCidAlert line entry s = _
  unfold execCidAlert
  rw [hn.takeControl]

/-- Settles O19. -/
theorem callerIdRequestsLoadAndAlert : Obligations.CallerIdRequestsLoadAndAlert := by
  refine ⟨fun s l line type length payload hn hl hp he => ⟨fun hu => ?_, fun hu => ⟨cidChecksum type payload, ?_, ?_⟩⟩,
    fun s l line entry hn hentry he => ⟨fun ho => ?_, fun ho hm => ?_, fun ho hm hc => ?_, fun ho hm hc hf => ?_⟩⟩
  · rw [hn.loadCid hl hp, he, hu, State.checked_fail rfl]
  · rw [← hp]
    exact cidChecksum_sum type payload
  · rw [hn.loadCid hl hp, he, hu, State.checked_pass rfl, Line.loadMessage_free hu]
    rfl
  · rw [hn.cidAlert, cidAlertChecks, decide_eq_true hentry, he, ho, State.checked_fail rfl]
  · rw [hn.cidAlert, cidAlertChecks, decide_eq_true hentry, he, ho, hm, State.checked_fail rfl]
  · rw [hn.cidAlert, cidAlertChecks, decide_eq_true hentry, he, ho, hm, hc, State.checked_fail rfl]
  · have hexec := hn.cidAlert entry
    rw [cidAlertChecks, decide_eq_true hentry, he, ho, hm, hf, Option.isSome_iff_ne_none.mpr hc, State.checked_pass rfl] at hexec
    refine (State.request_line hexec).mono ?_
    rintro t ⟨hline, hrequest⟩
    rw [hline]
    exact ⟨rfl, Line.markRule_touchMark rfl, hrequest⟩

/-! ### RING START and RING STOP -/

theorem State.Names.ringStart (hn : s.Names .control line l) (on off : Word16) (bursts cid : Byte) (delay : Word16) :
    exec (.ringStart line on off bursts cid delay) s = .next (s.checked .control (ringStartChecks (s.line l) on off cid delay)
      ((s.setLine l ((s.line l).startRinging on off bursts cid delay)).answer .control .ok [])) := by
  show execRingStart line on off bursts cid delay s = _
  unfold execRingStart
  rw [hn.takeControl]

theorem State.Names.ringStop (hn : s.Names .control line l) (hr : (s.line l).ring.state ≠ .idle) :
    exec (.ringStop line) s = .next ((s.commitLine l s.g (s.line l).stopRinging).answer .control .ok []) := by
  show execRingStop line s = _
  unfold execRingStop
  rw [hn.takeControl, if_neg hr]

theorem between_true {lo hi : Nat} {w : Word16} (h1 : lo ≤ w.toNat) (h2 : w.toNat ≤ hi) : between lo hi w = true := by
  rw [between, decide_eq_true h1, decide_eq_true h2]
  rfl

/-- RING STOP of a ringing that holds no CID. -/
theorem Line.stopRinging_noCid {L : Line} (h : L.ring.holdsCid = false) : L.stopRinging = (L.ringIdle, [.ringDone .stop]) := by
  have hend : L.endRinging .stop = (L.ringIdle, []) := by rw [Line.endRinging, if_neg (by rw [h]; exact Bool.false_ne_true)]
  rw [Line.stopRinging, hend]
  exact congrArg (·, [Event.ringDone .stop]) (Line.touchMark_same rfl rfl)

/-- RING STOP of a ringing that holds a CID. -/
theorem Line.stopRinging_withCid {L : Line} (h : L.ring.holdsCid = true) :
    L.stopRinging = (L.touchMark L.endOnHookCid.ringIdle, [.cidAborted .stop, .ringDone .stop]) := by
  rw [Line.stopRinging, Line.endRinging, if_pos h]
  rfl

/-- An on-hook CID that does not send ends. -/
theorem Line.endOnHookCid_scheduled {L : Line} (h : L.foreground = none) :
    L.endOnHookCid = { L with cid := ⟨L.cid.message, false⟩, ring := { L.ring with cid := none } } := by
  unfold Line.endOnHookCid
  dsimp only
  rw [h]
  rfl

/-- An on-hook CID that sends ends. -/
theorem Line.endOnHookCid_sending {L : Line} {st : CtxState} {m : OutputMode} {f : Option Fsk} (h : L.foreground = some ⟨st, m, .onHookCid f⟩) :
    L.endOnHookCid = { L with
      cid := ⟨L.cid.message, false⟩, ring := { L.ring with cid := none }, foreground := none
      background := L.background.map fun c => { c with state := .active } } := by
  unfold Line.endOnHookCid
  dsimp only
  rw [h]
  rfl

/-- RING STOP of a ringing whose CID has no context yet. -/
theorem Line.stopRinging_scheduled {L : Line} (h : L.ring.holdsCid = true) (hf : L.foreground = none) :
    L.stopRinging = (L.endOnHookCid.ringIdle, [.cidAborted .stop, .ringDone .stop]) := by
  rw [Line.stopRinging_withCid h, Line.touchMark_same] <;> rw [Line.endOnHookCid_scheduled hf] <;> rfl

/-- Settles O21. -/
theorem ringStartAndStop : Obligations.RingStartAndStop := by
  intro s l line hn
  refine ⟨fun on off bursts delay h1 h2 h3 h4 he => ⟨fun ho => ?_, fun ho hr => ?_, fun ho hr => ⟨?_, fun h5 h6 hc hu hm hf => ?_⟩⟩, fun hr => ?_,
    fun hr hc hroom => ?_, fun hcid hf hroom => ?_, fun begun remaining m f hr hf hroom => ?_⟩
  · rw [hn.ringStart, ringStartChecks, between_true h1 h2, between_true h3 h4, he, ho, State.checked_fail rfl]
  · have hbusy : ((s.line l).ring.state == .idle) = false := beq_eq_false_iff_ne.mpr hr
    rw [hn.ringStart, ringStartChecks, between_true h1 h2, between_true h3 h4, he, ho, hbusy, State.checked_fail rfl]
  · have hexec := hn.ringStart on off bursts 0 delay
    rw [ringStartChecks, between_true h1 h2, between_true h3 h4, he, ho, hr, State.checked_pass rfl] at hexec
    refine (State.request_line hexec).mono ?_
    rintro t ⟨hline, hrequest⟩
    rw [hline]
    refine ⟨?_, rfl, hrequest⟩
    unfold Line.startRinging
    rw [show ((0 : Byte) == 1) = false from rfl, Bool.or_false]
    rfl
  · have hexec := hn.ringStart on off bursts 1 delay
    rw [ringStartChecks, between_true h1 h2, between_true h3 h4, between_true h5 h6, he, ho, hr, Option.isSome_iff_ne_none.mpr hc, hu, hm, hf,
      State.checked_pass rfl] at hexec
    refine (State.request_line hexec).mono ?_
    rintro t ⟨hline, hrequest⟩
    rw [hline]
    refine ⟨?_, rfl, hrequest⟩
    unfold Line.startRinging
    rw [show ((1 : Byte) == 1) = true from rfl, Bool.or_true]
    rfl
  · show execRingStop line s = _
    unfold execRingStop
    rw [hn.takeControl, if_pos hr]
  · have hexec := hn.ringStop hr
    rw [Line.stopRinging_noCid hc] at hexec
    refine (State.Room.request (r := ((s.line l).ringIdle, [.ringDone .stop])) hroom (plain_cons.mpr ⟨rfl, plain_nil⟩) hexec).mono ?_
    rintro t ⟨hline, hrequest⟩
    rw [hline]
    exact ⟨rfl, rfl, hrequest⟩
  · have hholds : (s.line l).ring.holdsCid = true := by
      unfold RingRecord.holdsCid
      obtain ⟨⟨remaining, hr⟩, hc⟩ | ⟨begun, remaining, delay, hr⟩ := hcid
      · rw [hr, Option.isSome_iff_ne_none.mpr hc]
        rfl
      · rw [hr]
    have hr : (s.line l).ring.state ≠ .idle := by
      obtain ⟨⟨remaining, hr⟩, -⟩ | ⟨begun, remaining, delay, hr⟩ := hcid <;> rw [hr] <;> exact RingState.noConfusion
    have hexec := hn.ringStop hr
    rw [Line.stopRinging_scheduled hholds hf, Line.endOnHookCid_scheduled hf] at hexec
    refine (State.Room.request (r := (Line.ringIdle _, [.cidAborted .stop, .ringDone .stop])) hroom (by simp [Event.plain]) hexec).mono ?_
    rintro t ⟨hline, hrequest⟩
    rw [hline]
    exact ⟨rfl, rfl, hrequest⟩
  · have hholds : (s.line l).ring.holdsCid = true := by
      unfold RingRecord.holdsCid
      rw [hr]
    have hexec := hn.ringStop (by rw [hr]; exact RingState.noConfusion)
    rw [Line.stopRinging_withCid hholds, Line.endOnHookCid_sending hf] at hexec
    refine (State.Room.request (r := (Line.touchMark _ _, [.cidAborted .stop, .ringDone .stop])) hroom (by simp [Event.plain]) hexec).mono ?_
    rintro t ⟨hline, hrequest⟩
    rw [hline]
    exact ⟨rfl, Line.markRule_touchMark rfl, rfl, hrequest⟩

end Requests

/-! ### The turns of the Ring Controller -/

section Cadence

variable {s : State} {l : Fin 4}

/-- An event of a line that leaves a record and queues records. -/
theorem State.Room.turns {c : Instr} {r : LineStep} (hroom : s.Room r.2.length) (hp : Plain r.2)
    (hexec : exec c s = .next (s.commitLine l (s.g - 1) r)) : s.Turns c l r.1 r.2 :=
  ⟨_, hexec, hroom.commitLine (recordOf_plain hp l _)⟩

theorem exec_burstBegin {begun remaining : Nat} (hl : s.resetLow = false) (hd : (s.line l).ringDue = true)
    (hr : (s.line l).ring.state = .off begun remaining) (h : remaining ≤ 1) :
    exec (.burstBegin l) s = .next (s.commitLine l (s.g - 1) (s.line l).takeRing) := by
  have hbegins : (s.line l).ring.state.beginsBurst = true := by
    rw [hr]
    exact decide_eq_true h
  rw [← State.ringStep_due hd]
  exact (State.next_high hl).trans (congrArg Host.Outcome.next (if_pos hbegins))

theorem exec_cidSend {begun remaining delay : Nat} (hl : s.resetLow = false) (hd : (s.line l).ringDue = true)
    (hr : (s.line l).ring.state = .cidDelay begun remaining delay) (h : delay ≤ 1) :
    exec (.cidSend l) s = .next (s.commitLine l (s.g - 1) (s.line l).takeRing) := by
  have hbegins : (s.line l).ring.state.beginsCid = true := by
    rw [hr]
    exact decide_eq_true h
  rw [← State.ringStep_due hd]
  exact (State.next_high hl).trans (congrArg Host.Outcome.next (if_pos hbegins))

/-- The line once its ring step is taken from the works due. -/
def Line.ringTaken (L : Line) : Line := { L with due := { L.due with ring := false } }

theorem Line.takeRing_on {L : Line} {begun remaining : Nat} (hr : L.ring.state = .on begun remaining) (h : remaining ≤ 1) :
    L.takeRing = L.ringTaken.endBurst begun := by
  unfold Line.takeRing Line.stepRing
  dsimp only
  rw [hr]
  dsimp only
  rw [if_pos h]
  rfl

theorem Line.takeRing_off {L : Line} {begun remaining : Nat} (hr : L.ring.state = .off begun remaining) (h : remaining ≤ 1) :
    L.takeRing = (L.ringTaken.beginBurst begun, []) := by
  unfold Line.takeRing Line.stepRing
  dsimp only
  rw [hr]
  dsimp only
  rw [if_pos h]
  rfl

theorem Line.takeRing_cidDelay {L : Line} {begun remaining delay : Nat} (hr : L.ring.state = .cidDelay begun remaining delay) (h : delay ≤ 1) :
    L.takeRing = (L.ringTaken.beginCid begun (remaining - 1), []) := by
  unfold Line.takeRing Line.stepRing
  dsimp only
  rw [hr]
  dsimp only
  rw [if_pos h]
  rfl

theorem Line.endBurst_plain {L : Line} {begun : Nat} (hc : L.ring.cid = none) : L.endBurst begun = L.endPlainBurst begun := by
  rw [Line.endBurst, hc]

theorem Line.endBurst_cid {L : Line} {delay : Nat} (hc : L.ring.cid = some delay) :
    L.endBurst 1 = (L.setRing (.cidDelay 1 L.ring.offPeriod delay), []) := by
  rw [Line.endBurst, hc]
  exact if_pos rfl

theorem Line.beginBurst_eq (L : Line) (begun : Nat) :
    L.beginBurst begun = L.setRing (.on (if begun < 255 then begun + 1 else 255) L.ring.onPeriod) := by
  rw [Line.beginBurst, countUp]

theorem Line.beginCid_eq (L : Line) (begun remaining : Nat) : L.beginCid begun remaining = { L with
    ring := { L.ring with state := .cidSend begun remaining }, foreground := some ⟨.active, .exclusive, .onHookCid none⟩
    background := L.background.map fun c => { c with state := .suspended } } := rfl

/-- Settles O22. -/
theorem ringCadenceTurns : Obligations.RingCadenceTurns := by
  intro s l hl he hs hd hroom
  have hdue : (s.line l).ringDue = true := by rw [Line.ringDue, he, hs, hd]; rfl
  have hnone : s.Room 0 := hroom.mono (Nat.zero_le 1)
  refine ⟨fun begun hr hc hb => ?_, fun begun hr hc hb h0 => ?_, fun delay hr hc => ?_, fun begun remaining hr h => ?_,
    fun begun remaining delay hr h => ?_⟩
  · have hexec := exec_burstEnd hl hdue hr (Nat.le_refl 1)
    have hstep : (s.line l).ringTaken.endPlainBurst begun =
        ((s.line l).ringTaken.setRing (.off begun (s.line l).ring.offPeriod), []) := if_pos hb
    rw [Line.takeRing_on hr (Nat.le_refl 1), Line.endBurst_plain (L := (s.line l).ringTaken) hc, hstep] at hexec
    refine (State.Room.turns (r := (Line.setRing _ _, [])) hnone plain_nil hexec).mono ?_
    rintro t ⟨hline, hown⟩
    rw [hline]
    exact ⟨rfl, rfl, hown⟩
  · have hexec := exec_burstEnd hl hdue hr (Nat.le_refl 1)
    rw [Line.takeRing_done hr (Nat.le_refl 1) hc hb h0] at hexec
    refine (State.Room.turns (r := (Line.ringIdle _, [.ringDone .count])) hroom (plain_cons.mpr ⟨rfl, plain_nil⟩) hexec).mono ?_
    rintro t ⟨hline, hown⟩
    rw [hline]
    exact ⟨rfl, rfl, hown⟩
  · have hexec := exec_burstEnd hl hdue hr (Nat.le_refl 1)
    rw [Line.takeRing_on hr (Nat.le_refl 1), Line.endBurst_cid (L := (s.line l).ringTaken) hc] at hexec
    refine (State.Room.turns (r := (Line.setRing _ _, [])) hnone plain_nil hexec).mono ?_
    rintro t ⟨hline, hown⟩
    rw [hline]
    exact ⟨rfl, rfl, hown⟩
  · have hexec := exec_burstBegin hl hdue hr h
    rw [Line.takeRing_off hr h, Line.beginBurst_eq] at hexec
    refine (State.Room.turns (r := (Line.setRing _ _, [])) hnone plain_nil hexec).mono ?_
    rintro t ⟨hline, hown⟩
    rw [hline]
    exact ⟨rfl, rfl, hown⟩
  · have hexec := exec_cidSend hl hdue hr h
    rw [Line.takeRing_cidDelay hr h] at hexec
    refine (State.Room.turns (r := (Line.beginCid _ _ _, [])) hnone plain_nil hexec).mono ?_
    rintro t ⟨hline, hown⟩
    rw [hline, Line.beginCid_eq]
    exact ⟨rfl, rfl, hown⟩

end Cadence

end Sys2Proof.Machine
end

section
/-! The Hook Monitor and the captured side of the Tone Detector: each step of the classifier and of the digit machine (R121, R122, R136, R139,
R141, R143 to R148, R159 to R162, R164 to R166). -/

namespace Sys2Proof.Machine

/-! ### Contexts that a hook or detector step removes -/

section Contexts

variable {L : Line} {programs : List ProgramRecord}

theorem Line.with_background_none (h : L.background = none) : { L with background := none } = L := by rw [← h]

theorem Line.cutBackground_cuts {st : CtxState} {m : OutputMode} {r : Nat} {run : ProgramRun} (hb : L.background = some ⟨st, m, .program r run⟩)
    (hc : (programAt programs r).cutOnDigit = true) :
    L.cutBackground programs = ({ L with background := none }, [.signalCancelled .background .digit]) := by
  have hcuts : L.cutsOnDigit programs = true := by
    rw [Line.cutsOnDigit, hb]
    exact hc
  exact if_pos hcuts

theorem Line.cutBackground_keeps (h : L.background = none ∨ ∃ st m r run, L.background = some ⟨st, m, .program r run⟩ ∧
    (programAt programs r).cutOnDigit = false) : L.cutBackground programs = (L, []) := by
  have hcuts : ¬L.cutsOnDigit programs = true := by
    unfold Line.cutsOnDigit
    obtain hb | ⟨st, m, r, run, hb, hc⟩ := h
    · rw [hb]
      exact Bool.false_ne_true
    · rw [hb]
      exact fun h => Bool.false_ne_true (hc.symm.trans h)
  exact if_neg hcuts

/-- What the record of a background removed by ON-HOOK is. -/
def Line.backgroundCancelled (L : Line) : List Event :=
  if L.background = none then [] else [.signalCancelled .background .onHook]

theorem Line.onHookBackground_eq : L.onHookBackground = ({ L with background := none }, L.backgroundCancelled) := by
  unfold Line.onHookBackground Line.backgroundCancelled
  cases hb : L.background with
  | none => exact congrArg (·, []) (Line.with_background_none hb).symm
  | some c => rfl

theorem Line.onHookContexts_none (hf : L.foreground = none) : L.onHookContexts = ({ L with background := none }, L.backgroundCancelled) := by
  have h : L.onHookForeground = (L, []) := by rw [Line.onHookForeground, hf]
  rw [Line.onHookContexts, h, Line.onHookBackground_eq]
  rfl

theorem Line.onHookContexts_onHookCid {st : CtxState} {m : OutputMode} {f : Option Fsk} (hf : L.foreground = some ⟨st, m, .onHookCid f⟩) :
    L.onHookContexts = ({ L with background := none }, L.backgroundCancelled) := by
  have h : L.onHookForeground = (L, []) := by rw [Line.onHookForeground, hf]
  rw [Line.onHookContexts, h, Line.onHookBackground_eq]
  rfl

theorem Line.backgroundCancelled_map {M : Line} {f : Context → Context} (h : M.background = L.background.map f) :
    M.backgroundCancelled = L.backgroundCancelled := by
  unfold Line.backgroundCancelled
  rw [h]
  cases L.background <;> rfl

theorem Line.onHookContexts_program {st : CtxState} {m : OutputMode} {r : Nat} {run : ProgramRun}
    (hf : L.foreground = some ⟨st, m, .program r run⟩) : L.onHookContexts =
      ({ L with foreground := none, background := none }, .signalCancelled .foreground .onHook :: L.backgroundCancelled) := by
  have h : L.onHookForeground = (L.dropForeground, [.signalCancelled .foreground .onHook]) := by rw [Line.onHookForeground, hf]
  rw [Line.onHookContexts, h, Line.onHookBackground_eq, Line.backgroundCancelled_map (L := L) (f := Context.resume) rfl]
  rfl

theorem Line.onHookContexts_offHookCid {st : CtxState} {m : OutputMode} {a : AlertRun} (hf : L.foreground = some ⟨st, m, .offHookCid a⟩) :
    L.onHookContexts = ({ L with foreground := none, background := none, cid := ⟨L.cid.message, false⟩ },
      .cidAborted .onHook :: L.backgroundCancelled) := by
  have h : L.onHookForeground = (L.endOffHookCid, [.cidAborted .onHook]) := by rw [Line.onHookForeground, hf]
  rw [Line.onHookContexts, h, Line.onHookBackground_eq, Line.backgroundCancelled_map (L := L) (f := Context.resume) rfl]
  rfl

theorem Line.plain_backgroundCancelled : Plain L.backgroundCancelled := by
  unfold Line.backgroundCancelled
  split <;> simp [Event.plain]

theorem Line.length_backgroundCancelled : L.backgroundCancelled.length ≤ 1 := by
  unfold Line.backgroundCancelled
  split <;> simp

end Contexts

/-! ### The hook classifier -/

section Hook

variable {s : State} {l : Fin 4} {L : Line} {es : List Event}

/-- The record of a dialled digit (R146). -/
theorem dialled_eq (n : Nat) : dialled n = if n = 0 then [] else [if n ≤ 10 then .pulseDigit (n % 10) else .dialError n] := by
  unfold dialled
  by_cases h0 : n = 0
  · rw [if_pos h0, if_pos h0]
  · rw [if_neg h0, if_neg h0]
    by_cases h9 : n ≤ 9
    · rw [if_pos h9, if_pos (by omega), Nat.mod_eq_of_lt (by omega)]
    · rw [if_neg h9]
      by_cases h10 : n = 10
      · rw [if_pos h10, if_pos (by omega), h10]
      · rw [if_neg h10, if_neg (by omega)]

theorem exec_hookSample (hl : s.resetLow = false) (hd : (s.line l).hookDue = true) :
    exec (.hookSample l) s = .next (s.commitLine l (s.g - 1) ((s.line l).takeHook s.programs)) :=
  (State.next_high hl).trans (congrArg Host.Outcome.next (if_pos hd))

theorem exec_offHook (hl : s.resetLow = false) (h : (s.line l).willLift = true) : exec (.offHook l) s = exec (.hookSample l) s :=
  (State.next_high hl).trans ((congrArg Host.Outcome.next (if_pos h)).trans (State.next_high hl).symm)

theorem exec_onHook (hl : s.resetLow = false) (h : (s.line l).willHangUp = true) : exec (.onHook l) s = exec (.hookSample l) s :=
  (State.next_high hl).trans ((congrArg Host.Outcome.next (if_pos h)).trans (State.next_high hl).symm)

theorem exec_pulseDigit (hl : s.resetLow = false) (h : (s.line l).willDial = true) : exec (.pulseDigit l) s = exec (.hookSample l) s :=
  (State.next_high hl).trans ((congrArg Host.Outcome.next (if_pos h)).trans (State.next_high hl).symm)

/-- A hook sample by its step, under any of its rows. -/
theorem State.hookTurns {c : Instr} (hc : exec c s = exec (.hookSample l) s) (hl : s.resetLow = false) (hd : (s.line l).hookDue = true)
    (hroom : s.Room es.length) (hp : Plain es) (hstep : (s.line l).takeHook s.programs = (L, es)) : s.Turns c l L es := by
  refine State.Room.turns (r := (L, es)) hroom hp ?_
  rw [hc, exec_hookSample hl hd, hstep]

/-- The line with its hook sample taken from the works due, in a classifier state. -/
def Line.hooked (L : Line) (st : HookState) (pulses : Nat) : Line := { L with hook := ⟨st, pulses⟩, due := { L.due with hook := false } }

variable {programs : List ProgramRecord}

theorem Line.stepHook_onhook_false {off : Nat} (h : L.hook.state = .onhook off) :
    L.stepHook programs false = (L.setHook (.onhook 0) L.hook.pulses, []) := by simp only [Line.stepHook, h]

theorem Line.stepHook_onhook_true {off : Nat} (h : L.hook.state = .onhook off) :
    L.stepHook programs true = if off + 1 = 4 then L.qualifyOffHook else (L.setHook (.onhook (off + 1)) L.hook.pulses, []) := by
  simp only [Line.stepHook, h]

theorem Line.stepHook_offhook_true (h : L.hook.state = .offhook) : L.stepHook programs true = (L, []) := by
  simp only [Line.stepHook, h]

theorem Line.stepHook_offhook_false (h : L.hook.state = .offhook) :
    L.stepHook programs false = (L.setHook (.brk 1 .offhook) L.hook.pulses, []) := by simp only [Line.stepHook, h]

theorem Line.stepHook_dialing_true {make : Nat} (h : L.hook.state = .dialing make) :
    L.stepHook programs true = if make + 1 = 60 then (L.setHook .offhook 0, dialled L.hook.pulses)
      else (L.setHook (.dialing (make + 1)) L.hook.pulses, []) := by simp only [Line.stepHook, h]

theorem Line.stepHook_dialing_false {make : Nat} (h : L.hook.state = .dialing make) :
    L.stepHook programs false = (L.setHook (.brk 1 (.dialing make)) L.hook.pulses, []) := by simp only [Line.stepHook, h]

theorem Line.stepHook_break_true {b : Nat} {ret : HookReturn} (h : L.hook.state = .brk b ret) :
    L.stepHook programs true = L.endBreak programs b ret := by simp only [Line.stepHook, h]

theorem Line.stepHook_break_false {b : Nat} {ret : HookReturn} (h : L.hook.state = .brk b ret) :
    L.stepHook programs false = if b + 1 = 181 then L.qualifyOnHook else (L.setHook (.brk (b + 1) ret) L.hook.pulses, []) := by
  simp only [Line.stepHook, h]

/-- The line whose hook sample has been taken from the works due. -/
def Line.sampled (L : Line) : Line := { L with due := { L.due with hook := false } }

theorem Line.takeHook_of {raw : Bool} (hp : L.hookPin = raw) : L.takeHook programs = L.sampled.stepHook programs raw := by
  rw [← hp]
  rfl

theorem Line.takeHook_onhook_low {off : Nat} (h : L.hook.state = .onhook off) (hp : L.hookPin = false) :
    L.takeHook programs = (L.hooked (.onhook 0) L.hook.pulses, []) :=
  (L.takeHook_of hp).trans (Line.stepHook_onhook_false (L := L.sampled) h)

theorem Line.takeHook_onhook_high {off : Nat} (h : L.hook.state = .onhook off) (hp : L.hookPin = true) (ho : off < 3) :
    L.takeHook programs = (L.hooked (.onhook (off + 1)) L.hook.pulses, []) :=
  (L.takeHook_of hp).trans ((Line.stepHook_onhook_true (L := L.sampled) h).trans (if_neg (by omega)))

/-- The line as a qualified OFF-HOOK finds it (R144). -/
theorem Line.takeHook_lift (h : L.hook.state = .onhook 3) (hp : L.hookPin = true) :
    L.takeHook programs = (((L.hooked .offhook 0).endRinging .offHook).1, .offHook L.ringen :: ((L.hooked .offhook 0).endRinging .offHook).2) :=
  (L.takeHook_of hp).trans ((Line.stepHook_onhook_true (L := L.sampled) h).trans (if_pos rfl))

theorem Line.takeHook_offhook_high (h : L.hook.state = .offhook) (hp : L.hookPin = true) : L.takeHook programs = (L.sampled, []) :=
  (L.takeHook_of hp).trans (Line.stepHook_offhook_true (L := L.sampled) h)

theorem Line.takeHook_offhook_low (h : L.hook.state = .offhook) (hp : L.hookPin = false) :
    L.takeHook programs = (L.hooked (.brk 1 .offhook) L.hook.pulses, []) :=
  (L.takeHook_of hp).trans (Line.stepHook_offhook_false (L := L.sampled) h)

theorem Line.takeHook_dialing_low {make : Nat} (h : L.hook.state = .dialing make) (hp : L.hookPin = false) :
    L.takeHook programs = (L.hooked (.brk 1 (.dialing make)) L.hook.pulses, []) :=
  (L.takeHook_of hp).trans (Line.stepHook_dialing_false (L := L.sampled) h)

theorem Line.takeHook_dialing_high {make : Nat} (h : L.hook.state = .dialing make) (hp : L.hookPin = true) (hm : make < 59) :
    L.takeHook programs = (L.hooked (.dialing (make + 1)) L.hook.pulses, []) :=
  (L.takeHook_of hp).trans ((Line.stepHook_dialing_true (L := L.sampled) h).trans (if_neg (by omega)))

theorem Line.takeHook_dial (h : L.hook.state = .dialing 59) (hp : L.hookPin = true) :
    L.takeHook programs = (L.hooked .offhook 0, dialled L.hook.pulses) :=
  (L.takeHook_of hp).trans ((Line.stepHook_dialing_true (L := L.sampled) h).trans (if_pos rfl))

theorem Line.takeHook_break_low {b : Nat} {ret : HookReturn} (h : L.hook.state = .brk b ret) (hp : L.hookPin = false) (hb : b < 180) :
    L.takeHook programs = (L.hooked (.brk (b + 1) ret) L.hook.pulses, []) :=
  (L.takeHook_of hp).trans ((Line.stepHook_break_false (L := L.sampled) h).trans (if_neg (by omega)))

theorem Line.takeHook_hangUp {ret : HookReturn} (h : L.hook.state = .brk 180 ret) (hp : L.hookPin = false) :
    L.takeHook programs = ((L.hooked (.onhook 0) 0).onHookContexts.1, .onHook :: (L.hooked (.onhook 0) 0).onHookContexts.2) :=
  (L.takeHook_of hp).trans ((Line.stepHook_break_false (L := L.sampled) h).trans (if_pos rfl))

theorem Line.takeHook_glitch {b : Nat} {ret : HookReturn} (h : L.hook.state = .brk b ret) (hp : L.hookPin = true) (hb : b ≤ 3) :
    L.takeHook programs = (L.hooked ret.state L.hook.pulses, []) :=
  (L.takeHook_of hp).trans ((Line.stepHook_break_true (L := L.sampled) h).trans (if_pos hb))

theorem Line.takeHook_break_digit {b : Nat} {ret : HookReturn} (h : L.hook.state = .brk b ret) (hp : L.hookPin = true) (h4 : 4 ≤ b)
    (h20 : b ≤ 20) : L.takeHook programs = if L.hook.pulses = 0 then (L.hooked (.dialing 0) (countUp 255 L.hook.pulses)).cutBackground programs
      else (L.hooked (.dialing 0) (countUp 255 L.hook.pulses), []) :=
  (L.takeHook_of hp).trans ((Line.stepHook_break_true (L := L.sampled) h).trans ((if_neg (by omega)).trans (if_pos h20)))

/-- A dial pulse after another of the same digit (R148). -/
theorem Line.takeHook_pulse {b : Nat} {ret : HookReturn} (h : L.hook.state = .brk b ret) (hp : L.hookPin = true) (h4 : 4 ≤ b) (h20 : b ≤ 20)
    (hn : 1 ≤ L.hook.pulses) : L.takeHook programs = (L.hooked (.dialing 0) (min 255 (L.hook.pulses + 1)), []) :=
  (L.takeHook_break_digit h hp h4 h20).trans ((if_neg (by omega)).trans (by rw [countUp_eq_min]))

/-- The first dial pulse of a digit (R121, R148). -/
theorem Line.takeHook_first_pulse {b : Nat} {ret : HookReturn} (h : L.hook.state = .brk b ret) (hp : L.hookPin = true) (h4 : 4 ≤ b)
    (h20 : b ≤ 20) (hn : L.hook.pulses = 0) : L.takeHook programs = (L.hooked (.dialing 0) 1).cutBackground programs :=
  (L.takeHook_break_digit h hp h4 h20).trans ((if_pos hn).trans (by rw [hn]; rfl))

theorem Line.takeHook_flash {b : Nat} {ret : HookReturn} (h : L.hook.state = .brk b ret) (hp : L.hookPin = true) (h21 : 21 ≤ b) :
    L.takeHook programs = (L.hooked .offhook 0, dialled L.hook.pulses ++ [.flash]) :=
  (L.takeHook_of hp).trans ((Line.stepHook_break_true (L := L.sampled) h).trans ((if_neg (by omega)).trans (if_neg (by omega))))

theorem Line.endRinging_noCid {cause : AbortCause} (h : L.ring.holdsCid = false) : L.endRinging cause = (L.ringIdle, []) :=
  if_neg (by rw [h]; exact Bool.false_ne_true)

theorem Line.endRinging_withCid {cause : AbortCause} (h : L.ring.holdsCid = true) :
    L.endRinging cause = (L.endOnHookCid.ringIdle, [.cidAborted cause]) := if_pos h

theorem dialled_of_pos {n : Nat} (h : 1 ≤ n) : dialled n = [if n ≤ 10 then .pulseDigit (n % 10) else .dialError n] :=
  (dialled_eq n).trans (if_neg (by omega))

theorem plain_dialled (n : Nat) : Plain (dialled n) ∧ (dialled n).length ≤ 1 := by
  rw [dialled_eq]
  split
  · exact ⟨plain_nil, Nat.zero_le _⟩
  · split <;> simp [Event.plain]

theorem Line.willLift_of (h : L.hook.state = .onhook 3) (hp : L.hookPin = true) : L.willLift = true := by
  simp [Line.willLift, h, hp]

theorem Line.willHangUp_of {ret : HookReturn} (h : L.hook.state = .brk 180 ret) (hp : L.hookPin = false) : L.willHangUp = true := by
  simp [Line.willHangUp, h, hp]

theorem Line.willDial_of (h : L.hook.state = .dialing 59) (hp : L.hookPin = true) : L.willDial = true := by
  simp [Line.willDial, h, hp]

/-- A hook sample that queues no record. -/
theorem State.hookTurns_quiet (hl : s.resetLow = false) (hd : (s.line l).hookDue = true) (hroom : s.Room 3)
    (hstep : (s.line l).takeHook s.programs = (L, [])) : s.Turns (.hookSample l) l L [] :=
  State.hookTurns rfl hl hd (hroom.mono (Nat.zero_le 3)) plain_nil hstep

/-- The hook sample that qualifies OFF-HOOK (R144). -/
theorem State.liftTurns (hl : s.resetLow = false) (hd : (s.line l).hookDue = true) (hroom : s.Room 3)
    (h : (s.line l).hook.state = .onhook 3) (hp : (s.line l).hookPin = true) {es : List Event} (hes : Plain es) (hn : es.length ≤ 2)
    (he : ((s.line l).hooked .offhook 0).endRinging .offHook = (L, es)) : s.Turns (.offHook l) l L (.offHook (s.line l).ringen :: es) :=
  State.hookTurns (exec_offHook hl (Line.willLift_of h hp)) hl hd (hroom.mono (Nat.succ_le_succ hn)) (plain_cons.2 ⟨rfl, hes⟩)
    (by rw [Line.takeHook_lift h hp, he])

/-- The hook sample that qualifies ON-HOOK (R147). -/
theorem State.hangUpTurns (hl : s.resetLow = false) (hd : (s.line l).hookDue = true) (hroom : s.Room 3) {ret : HookReturn}
    (h : (s.line l).hook.state = .brk 180 ret) (hp : (s.line l).hookPin = false) {es : List Event} (hes : Plain es) (hn : es.length ≤ 2)
    (he : ((s.line l).hooked (.onhook 0) 0).onHookContexts = (L, es)) : s.Turns (.onHook l) l L (.onHook :: es) :=
  State.hookTurns (exec_onHook hl (Line.willHangUp_of h hp)) hl hd (hroom.mono (Nat.succ_le_succ hn)) (plain_cons.2 ⟨rfl, hes⟩)
    (by rw [Line.takeHook_hangUp h hp, he])

/-- Settles O40: each case of the classifier is one equation of the sample that it takes. -/
theorem hookClassifierQualifies : Obligations.HookClassifierQualifies := by
  rintro s l d n hl hd hroom rfl rfl
  have quiet {L : Line} (h : (s.line l).takeHook s.programs = (L, [])) : s.Turns (.hookSample l) l L [] :=
    State.hookTurns_quiet hl hd hroom h
  refine ⟨fun off h => ⟨fun hp => quiet (Line.takeHook_onhook_low h hp), fun hp ho => quiet (Line.takeHook_onhook_high h hp ho)⟩, ?lift,
    fun h => ⟨fun hp => quiet (Line.takeHook_offhook_high h hp), fun hp => quiet (Line.takeHook_offhook_low h hp)⟩, ?dialing, ?breaks⟩
  case lift =>
    intro h hp
    refine ⟨fun hc => ?_, fun hc hf => ?_, fun st m f hc hf => ?_⟩
    · exact State.liftTurns hl hd hroom h hp plain_nil (Nat.zero_le _) (Line.endRinging_noCid (L := (s.line l).hooked .offhook 0) hc)
    · refine State.liftTurns hl hd hroom h hp (plain_cons.2 ⟨rfl, plain_nil⟩) (by decide)
        ((Line.endRinging_withCid (L := (s.line l).hooked .offhook 0) hc).trans ?_)
      rw [Line.endOnHookCid_scheduled (L := (s.line l).hooked .offhook 0) hf]
      rfl
    · refine State.liftTurns hl hd hroom h hp (plain_cons.2 ⟨rfl, plain_nil⟩) (by decide)
        ((Line.endRinging_withCid (L := (s.line l).hooked .offhook 0) hc).trans ?_)
      rw [Line.endOnHookCid_sending (L := (s.line l).hooked .offhook 0) hf]
      rfl
  case dialing =>
    intro make h
    refine ⟨fun hp => quiet (Line.takeHook_dialing_low h hp), fun hp hm => quiet (Line.takeHook_dialing_high h hp hm), ?_⟩
    rintro hp rfl hn
    obtain ⟨hplain, hlen⟩ := plain_dialled (s.line l).hook.pulses
    rw [← dialled_of_pos hn]
    exact State.hookTurns (exec_pulseDigit hl (Line.willDial_of h hp)) hl hd (hroom.mono (hlen.trans (by decide))) hplain
      (Line.takeHook_dial h hp)
  case breaks =>
    intro b ret h
    refine ⟨fun hp hb => quiet (Line.takeHook_break_low h hp hb), ?hangUp, ?glitch, ?pulse, ?flash⟩
    case hangUp =>
      rintro after hp rfl rfl
      have hplain := ((s.line l).hooked (.onhook 0) 0).plain_backgroundCancelled
      have hlen := ((s.line l).hooked (.onhook 0) 0).length_backgroundCancelled
      refine ⟨fun hf => ?_, fun st m r run hf => ?_, fun st m a hf => ?_, fun st m f hf => ?_⟩
      · exact State.hangUpTurns hl hd hroom h hp hplain (hlen.trans (by decide))
          (Line.onHookContexts_none (L := (s.line l).hooked (.onhook 0) 0) hf)
      · exact State.hangUpTurns hl hd hroom h hp (plain_cons.2 ⟨rfl, hplain⟩) (Nat.succ_le_succ hlen)
          (Line.onHookContexts_program (L := (s.line l).hooked (.onhook 0) 0) hf)
      · exact State.hangUpTurns hl hd hroom h hp (plain_cons.2 ⟨rfl, hplain⟩) (Nat.succ_le_succ hlen)
          (Line.onHookContexts_offHookCid (L := (s.line l).hooked (.onhook 0) 0) hf)
      · exact State.hangUpTurns hl hd hroom h hp hplain (hlen.trans (by decide))
          (Line.onHookContexts_onHookCid (L := (s.line l).hooked (.onhook 0) 0) hf)
    case glitch =>
      intro hp hb
      have hg := Line.takeHook_glitch (programs := s.programs) h hp hb
      exact ⟨fun hr => by subst hr; exact quiet hg, fun make hr => by subst hr; exact quiet hg⟩
    case pulse =>
      intro hp h4 h20
      refine ⟨fun hn => quiet (Line.takeHook_pulse h hp h4 h20 hn), fun hn hb => ?_, fun st m r run hn hb hc => ?_⟩
      · exact quiet ((Line.takeHook_first_pulse h hp h4 h20 hn).trans
          (Line.cutBackground_keeps (L := (s.line l).hooked (.dialing 0) 1) hb))
      · exact State.hookTurns rfl hl hd (hroom.mono (by decide)) (plain_cons.2 ⟨rfl, plain_nil⟩)
          ((Line.takeHook_first_pulse h hp h4 h20 hn).trans (Line.cutBackground_cuts (L := (s.line l).hooked (.dialing 0) 1) hb hc))
    case flash =>
      intro hp h21
      obtain ⟨hplain, hlen⟩ := plain_dialled (s.line l).hook.pulses
      rw [← dialled_eq]
      refine State.hookTurns rfl hl hd (hroom.mono ?_) (plain_append.2 ⟨hplain, plain_cons.2 ⟨rfl, plain_nil⟩⟩) (Line.takeHook_flash h hp h21)
      rw [List.length_append]
      exact (Nat.add_le_add_right hlen _).trans (by decide)

end Hook

end Sys2Proof.Machine
end

section
/-! The captured side of the Tone Detector: the digit machine and the fax-tone machines (R121, R139, R159 to R162, R164 to R166), and the
class of a silent and of a loud cell (R158). -/

namespace Sys2Proof.Machine

section Detector

variable {s : State} {l : Fin 4} {L M : Line} {es : List Event} {c : CellClass} {programs : List ProgramRecord}

theorem countBy_eq_min (top k n : Nat) : countBy top k n = min top (n + k) := by
  unfold countBy
  split <;> omega

/-! ### The rows of the detector step -/

theorem exec_toneDetectorStep (hl : s.resetLow = false) (hd : (s.line l).detectorDue = true) :
    exec (.toneDetectorStep l) s = .next (s.commitLine l (s.g - 1) ((s.line l).takeDetector s.programs)) :=
  (State.next_high hl).trans (congrArg Host.Outcome.next (if_pos hd))

theorem exec_digit (hl : s.resetLow = false) (h : (s.line l).willQualify = true) : exec (.digit l) s = exec (.toneDetectorStep l) s :=
  (State.next_high hl).trans ((congrArg Host.Outcome.next (if_pos h)).trans (State.next_high hl).symm)

theorem exec_digitEnd (hl : s.resetLow = false) (h : (s.line l).willRelease = true) :
    exec (.digitEnd l) s = exec (.toneDetectorStep l) s :=
  (State.next_high hl).trans ((congrArg Host.Outcome.next (if_pos h)).trans (State.next_high hl).symm)

theorem exec_faxCalling (hl : s.resetLow = false) (h : (s.line l).willCall = true) :
    exec (.faxCalling l) s = exec (.toneDetectorStep l) s :=
  (State.next_high hl).trans ((congrArg Host.Outcome.next (if_pos h)).trans (State.next_high hl).symm)

theorem exec_faxAnswer_local (hl : s.resetLow = false) (h : (s.line l).willAnswer = true) :
    exec (.faxAnswer l .localEnd) s = exec (.toneDetectorStep l) s :=
  (State.next_high hl).trans ((congrArg Host.Outcome.next (if_pos h)).trans (State.next_high hl).symm)

/-- A detector step by its taking, under any of its rows. -/
theorem State.detectorTurns {i : Instr} (hi : exec i s = exec (.toneDetectorStep l) s) (hl : s.resetLow = false)
    (hd : (s.line l).detectorDue = true) (hroom : s.Room es.length) (hp : Plain es)
    (hstep : (s.line l).takeDetector s.programs = (L, es)) : s.Turns i l L es := by
  refine State.Room.turns (r := (L, es)) hroom hp ?_
  rw [hi, exec_toneDetectorStep hl hd, hstep]

/-! ### The digit machine -/

theorem DigitMachine.count_eq (p : DigitPhase) (run : Option Digit) (n : Nat) :
    DigitMachine.count ⟨p, run, n⟩ c = runAfter p run n c := by
  cases c with
  | dtmf d =>
    by_cases h : run = some d
    · subst h
      exact (if_pos rfl).trans (congrArg (DigitMachine.mk p (some d)) (if_pos rfl).symm)
    · exact (if_neg h).trans (congrArg (DigitMachine.mk p (some d)) (if_neg h).symm)
  | none => rfl
  | faxCalling => rfl
  | faxAnswer => rfl
  | other => rfl

theorem Line.stepDigits_seeking (h : L.detector.digits.phase = .seeking) : L.stepDigits programs c = L.seekDigit programs c := by
  rw [Line.stepDigits, h]

theorem Line.stepDigits_held {d : Digit} {duration release : Nat} {taken : Bool}
    (h : L.detector.digits.phase = .held d duration release taken) :
    L.stepDigits programs c = L.holdDigit d duration release taken c := by
  rw [Line.stepDigits, h]

theorem runAfter_length_ne {p : DigitPhase} {run : Option Digit} {n : Nat} {d : Digit} (h : run = some d → n ≠ 7) :
    (runAfter p run n (.dtmf d)).runLength ≠ 8 := by
  show (if run = some d then n + 1 else 1) ≠ 8
  split
  next hr => exact fun h8 => h hr (by omega)
  next => decide

/-- A cell in SEEKING that qualifies no digit (R160). -/
theorem Line.stepDigits_seeks {run : Option Digit} {n : Nat} (h : L.detector.digits = ⟨.seeking, run, n⟩)
    (hq : ∀ e, c = .dtmf e → run = some e → n ≠ 7) : L.stepDigits programs c = (L.setDigits (runAfter .seeking run n c), []) := by
  rw [Line.stepDigits_seeking (by rw [h]), ← DigitMachine.count_eq, ← h]
  cases c with
  | dtmf d =>
    refine if_neg ?_
    rw [h, DigitMachine.count_eq]
    exact runAfter_length_ne (hq d rfl)
  | none => rfl
  | faxCalling => rfl
  | faxAnswer => rfl
  | other => rfl

/-- The eighth cell of a run (R160). -/
theorem Line.stepDigits_qualifies {d : Digit} (h : L.detector.digits = ⟨.seeking, some d, 7⟩) :
    L.stepDigits programs (.dtmf d) = L.qualifyDigit programs d := by
  rw [Line.stepDigits_seeking (by rw [h])]
  refine if_pos ?_
  rw [h, DigitMachine.count_eq]
  exact if_pos rfl

/-- The line in HELD, with a digit that its context took or not. -/
def Line.holds (L : Line) (d : Digit) (taken : Bool) : Line := L.setDigits ⟨.held d 8 0 taken, none, 0⟩

theorem Line.qualifyDigit_reports {d : Digit} (h : ¬((d = 12 ∨ d = 15) ∧ L.awaitsAck = true)) : L.qualifyDigit programs d =
    (((L.holds d false).cutBackground programs).1, .digit d :: ((L.holds d false).cutBackground programs).2) := if_neg h

theorem Line.qualifyDigit_acknowledges {d : Digit} (h : d = 12 ∨ d = 15) (ha : L.awaitsAck = true) : L.qualifyDigit programs d =
    ({ L with foreground := L.foreground.map Context.acknowledge }.holds d true, []) := if_pos ⟨h, ha⟩

/-- An ACTIVE foreground awaits an acknowledgement only as an off-hook CID in AWAIT-ACK (R162). -/
theorem Line.awaitsAck_iff : L.awaitsAck = true ↔ ∃ st m r, L.foreground = some ⟨st, m, .offHookCid r⟩ ∧ r.phase = .awaitAck := by
  unfold Line.awaitsAck
  split
  next x hx =>
    obtain ⟨st, m, k⟩ := x
    rw [hx]
    cases k with
    | offHookCid r => simp
    | program r run => simp
    | onHookCid f => simp
  next hx => simp [hx]

/-- A cell of the held digit (R161). -/
theorem Line.stepDigits_holds {d : Digit} {duration release n : Nat} {taken : Bool} {run : Option Digit}
    (h : L.detector.digits = ⟨.held d duration release taken, run, n⟩) : L.stepDigits programs (.dtmf d) =
      (L.setDigits ⟨.held d (min 65535 (duration + 1 + release)) 0 taken, none, 0⟩, []) := by
  rw [Line.stepDigits_held (by rw [h]), Nat.add_assoc, ← countBy_eq_min]
  exact if_pos rfl

/-- A release cell that is not the third (R161). -/
theorem Line.stepDigits_releasing {d : Digit} {duration release n : Nat} {taken : Bool} {run : Option Digit}
    (h : L.detector.digits = ⟨.held d duration release taken, run, n⟩) (hc : c ≠ .dtmf d) (hr : release < 2) :
    L.stepDigits programs c = (L.setDigits (runAfter (.held d duration (release + 1) taken) run n c), []) := by
  rw [Line.stepDigits_held (by rw [h]), ← DigitMachine.count_eq]
  refine (if_neg hc).trans ((if_neg (by omega)).trans ?_)
  rw [h, DigitMachine.count_eq, DigitMachine.count_eq]
  cases c <;> rfl

/-- The third release cell (R161). -/
theorem Line.stepDigits_releases {d : Digit} {duration n : Nat} {taken : Bool} {run : Option Digit}
    (h : L.detector.digits = ⟨.held d duration 2 taken, run, n⟩) (hc : c ≠ .dtmf d) : L.stepDigits programs c =
      (L.setDigits (runAfter .seeking run n c), if taken then [] else [.digitEnd d duration]) := by
  rw [Line.stepDigits_held (by rw [h])]
  refine (if_neg hc).trans ((if_pos rfl).trans ?_)
  rw [h, DigitMachine.count_eq]
  cases c <;> rfl

/-! ### The fax-tone machines -/

theorem runCount_eq (top n : Nat) (h : Bool) : runCount top h n = if h = true then min top (n + 1) else 0 := by
  rw [runCount, countUp_eq_min]

theorem completes_iff {top n : Nat} {h : Bool} : completes (top + 1) h n = true ↔ h = true ∧ n = top := by
  simp [completes]

/-- The line with its fax-calling count after a cell. -/
def Line.calling (L : Line) (c : CellClass) : Line :=
  { L with detector := { L.detector with faxCalling := if c = .faxCalling then min 100 (L.detector.faxCalling + 1) else 0 } }

/-- The line with its capture fax-answer count after a cell. -/
def Line.answering (L : Line) (c : CellClass) : Line :=
  { L with detector := { L.detector with captureAnswer := if c = .faxAnswer then min 60 (L.detector.captureAnswer + 1) else 0 } }

theorem Line.stepCalling_eq : L.stepCalling c = if c = .faxCalling ∧ L.detector.faxCalling = 99
    then ((L.calling c).autoFaxAction, [.faxCalling]) else (L.calling c, []) := by
  unfold Line.stepCalling Line.calling
  simp only [runCount_eq, completes_iff, beq_iff_eq]

theorem Line.stepCaptureAnswer_eq : L.stepCaptureAnswer c = if c = .faxAnswer ∧ L.detector.captureAnswer = 59
    then ((L.answering c).autoFaxAction, [.faxAnswer .localEnd]) else (L.answering c, []) := by
  unfold Line.stepCaptureAnswer Line.answering
  simp only [runCount_eq, completes_iff, beq_iff_eq]

/-! ### The step as a whole -/

theorem Line.stepDetector_fax (h : L.mode = .fax) : L.stepDetector programs c = (L, []) := by
  simp only [Line.stepDetector, h]

theorem Line.takeDetector_fax (h : L.mode = .fax) : L.takeDetector programs = ({ L with due := { L.due with detector := false } }, []) := by
  rw [Line.takeDetector, Line.stepDetector_fax h]

theorem Line.stepDetector_voice (h : L.mode = .voice) : L.stepDetector programs c =
    ((((L.stepDigits programs c).1.stepCalling c).1.stepCaptureAnswer c).1,
      (L.stepDigits programs c).2 ++ ((L.stepDigits programs c).1.stepCalling c).2 ++
        (((L.stepDigits programs c).1.stepCalling c).1.stepCaptureAnswer c).2) := by
  simp only [Line.stepDetector, h]

/-- The line after a detector step that completes no fax run. -/
def Line.detected (L : Line) (t : Detector) : Line := { L with detector := t, due := { L.due with detector := false } }

/-- A detector step that completes no fax run is the digit machine's step and the counts of the cell (R159, R164, R165). -/
theorem Line.takeDetector_digits {m : DigitMachine} (hm : L.mode = .voice) (hc : c = L.closedHalf.cls)
    (h99 : c = .faxCalling → L.detector.faxCalling ≠ 99) (h59 : c = .faxAnswer → L.detector.captureAnswer ≠ 59)
    (hs : L.stepDigits programs c = (M, es)) (hM : M.detector = { L.detector with digits := m }) :
    L.takeDetector programs = (M.detected (L.detector.after c m), es) := by
  have hcalling : M.stepCalling c = (M.calling c, []) := by
    rw [Line.stepCalling_eq, hM]
    exact if_neg fun h => h99 h.1 h.2
  have hanswer : (M.calling c).stepCaptureAnswer c = ((M.calling c).answering c, []) := by
    rw [Line.stepCaptureAnswer_eq, Line.calling, hM]
    exact if_neg fun h => h59 h.1 h.2
  rw [Line.takeDetector, ← hc, Line.stepDetector_voice hm, hs, hcalling, hanswer]
  simp only [List.append_nil, Line.detected, Line.answering, Line.calling, hM, Detector.after]

/-! ### The digit obligation -/

theorem Line.willQualify_of {d : Digit} (hm : L.mode = .voice) (h : L.detector.digits = ⟨.seeking, some d, 7⟩)
    (hc : L.closedHalf.cls = .dtmf d) : L.willQualify = true := by
  simp [Line.willQualify, hm, h, hc]

theorem Line.willRelease_of {d : Digit} {duration n : Nat} {taken : Bool} {run : Option Digit} (hm : L.mode = .voice)
    (h : L.detector.digits = ⟨.held d duration 2 taken, run, n⟩) (hc : L.closedHalf.cls ≠ .dtmf d) : L.willRelease = true := by
  simp [Line.willRelease, hm, h, hc]

/-- Settles O41: each case of the digit machine is one equation of its step, taken with the counts of the fax-tone machines. -/
theorem digitMachineQualifiesAndReleases : Obligations.DigitMachineQualifiesAndReleases := by
  rintro s l d c due hl hd hroom rfl rfl
  refine ⟨fun hm => State.detectorTurns rfl hl hd (hroom.mono (by decide)) plain_nil (Line.takeDetector_fax hm), ?qualify, ?count⟩
  case qualify =>
    intro hm hdig hc
    have turns {M : Line} {m : DigitMachine} {es : List Event} (hn : es.length ≤ 2) (hp : Plain es)
        (hq : (s.line l).qualifyDigit s.programs d = (M, es)) (hM : M.detector = { (s.line l).detector with digits := m }) :
        s.Turns (.digit l) l (M.detected ((s.line l).detector.after (s.line l).closedHalf.cls m)) es := by
      refine State.detectorTurns (exec_digit hl (Line.willQualify_of hm hdig hc)) hl hd (hroom.mono hn) hp
        (Line.takeDetector_digits hm rfl ?_ ?_ ?_ hM)
      · exact fun h => nomatch hc.symm.trans h
      · exact fun h => nomatch hc.symm.trans h
      · rw [hc, Line.stepDigits_qualifies hdig, hq]
    refine ⟨fun hnot hact => ?reported, fun m e k tone fsk hf hd' => ?acknowledged⟩
    case acknowledged =>
      have hq := Line.qualifyDigit_acknowledges (programs := s.programs) hd' (Line.awaitsAck_iff.2 ⟨_, _, _, hf, rfl⟩)
      rw [hf] at hq
      exact turns (m := ⟨.held d 8 0 true, none, 0⟩) (Nat.zero_le _) plain_nil hq rfl
    case reported =>
      have hno : ¬((d = 12 ∨ d = 15) ∧ (s.line l).awaitsAck = true) := by
        rintro ⟨hd', ha⟩
        obtain ⟨st, m, ⟨e, ph, k, tone, fsk⟩, hf, rfl⟩ := Line.awaitsAck_iff.1 ha
        obtain rfl := hact _ hf
        exact hnot m e k tone fsk hd' hf
      have hq := Line.qualifyDigit_reports (programs := s.programs) hno
      refine ⟨fun hb => ?_, fun st m r run hb hcut => ?_⟩
      · rw [Line.cutBackground_keeps (L := (s.line l).holds d false) hb] at hq
        exact turns (M := (s.line l).holds d false) (Nat.le_succ 1) (plain_cons.2 ⟨rfl, plain_nil⟩) hq rfl
      · rw [Line.cutBackground_cuts (L := (s.line l).holds d false) hb hcut] at hq
        exact turns (M := { (s.line l).holds d false with background := none }) (Nat.le_refl 2)
          (plain_cons.2 ⟨rfl, plain_cons.2 ⟨rfl, plain_nil⟩⟩) hq rfl
  case count =>
    intro hm h99 h59 run n
    have turns {i : Instr} {m : DigitMachine} {es : List Event} (hi : exec i s = exec (.toneDetectorStep l) s) (hn : es.length ≤ 2)
        (hp : Plain es) (hq : (s.line l).stepDigits s.programs (s.line l).closedHalf.cls = ((s.line l).setDigits m, es)) :
        s.Turns i l ((s.line l).detected ((s.line l).detector.after (s.line l).closedHalf.cls m)) es :=
      State.detectorTurns hi hl hd (hroom.mono hn) hp (Line.takeDetector_digits (M := (s.line l).setDigits m) hm rfl h99 h59 hq rfl)
    refine ⟨fun hdig hq => turns rfl (by decide) plain_nil (Line.stepDigits_seeks hdig hq), fun duration release taken hdig => ⟨?_, ?_, ?_⟩⟩
    · intro hc
      exact turns rfl (by decide) plain_nil (by rw [hc, Line.stepDigits_holds hdig])
    · intro hc hr
      exact turns rfl (by decide) plain_nil (Line.stepDigits_releasing hdig hc hr)
    · rintro hc rfl
      have hp : Plain (if taken = true then [] else [Event.digitEnd d duration]) ∧
          (if taken = true then [] else [Event.digitEnd d duration]).length ≤ 2 := by
        cases taken <;> simp [Event.plain]
      exact turns (exec_digitEnd hl (Line.willRelease_of hm hdig hc)) hp.2 hp.1 (Line.stepDigits_releases hdig hc)

/-! ### The fax tones of the captured side -/

theorem Line.willCall_of (hm : L.mode = .voice) (hc : L.closedHalf.cls = .faxCalling) (h : L.detector.faxCalling = 99) :
    L.willCall = true := by
  rw [Line.willCall, hm, hc, h]
  rfl

theorem Line.willAnswer_of (hm : L.mode = .voice) (hc : L.closedHalf.cls = .faxAnswer) (h : L.detector.captureAnswer = 59) :
    L.willAnswer = true := by
  rw [Line.willAnswer, hm, hc, h]
  rfl

/-- The auto-fax action replaces the pending mode and nothing else (R166). -/
theorem Line.autoFaxAction_eq (hm : L.mode = .voice) : L.autoFaxAction =
    { L with pendingMode := if L.autoFax = true ∧ L.pendingMode = none then some ⟨.fax, .auto⟩ else L.pendingMode } := by
  unfold Line.autoFaxAction
  by_cases h : L.autoFax = true ∧ L.pendingMode = none
  · rw [if_pos ⟨h.1, hm, h.2⟩, if_pos h]
  · rw [if_neg fun h' => h ⟨h'.1, h'.2.2⟩, if_neg h]

theorem DigitMachine.eta_of {m : DigitMachine} {p : DigitPhase} (h : m.phase = p) : m = ⟨p, m.runDigit, m.runLength⟩ := by rw [← h]

/-- A cell that is no digit ends a run in SEEKING (R160). -/
theorem Line.stepDigits_ends (h : L.detector.digits.phase = .seeking) (hc : ∀ d, c ≠ .dtmf d) :
    L.stepDigits programs c = (L.setDigits ⟨.seeking, none, 0⟩, []) := by
  rw [Line.stepDigits_seeks (L.detector.digits.eta_of h) fun e he => absurd he (hc e)]
  cases c with
  | dtmf d => exact absurd rfl (hc d)
  | none => rfl
  | faxCalling => rfl
  | faxAnswer => rfl
  | other => rfl

theorem Line.takeDetector_faxCalling (hm : L.mode = .voice) (hs : L.detector.digits.phase = .seeking) (hc : L.closedHalf.cls = .faxCalling)
    (h : L.detector.faxCalling = 99) : L.takeDetector programs =
      ({ L with
          detector := ⟨⟨.seeking, none, 0⟩, 100, 0, L.detector.playoutAnswer⟩
          pendingMode := if L.autoFax = true ∧ L.pendingMode = none then some ⟨.fax, .auto⟩ else L.pendingMode
          due := { L.due with detector := false } }, [.faxCalling]) := by
  have hstep : (L.setDigits ⟨.seeking, none, 0⟩).stepCalling .faxCalling =
      (((L.setDigits ⟨.seeking, none, 0⟩).calling .faxCalling).autoFaxAction, [.faxCalling]) := by
    rw [Line.stepCalling_eq]
    exact if_pos ⟨rfl, h⟩
  rw [Line.takeDetector, Line.stepDetector_voice hm, hc, Line.stepDigits_ends (c := .faxCalling) hs (fun _ h => nomatch h), hstep,
    Line.autoFaxAction_eq (L := (L.setDigits ⟨.seeking, none, 0⟩).calling .faxCalling) hm, Line.stepCaptureAnswer_eq,
    if_neg (fun h => nomatch h.1)]
  simp [Line.answering, Line.calling, Line.setDigits, h]

theorem Line.takeDetector_faxAnswer (hm : L.mode = .voice) (hs : L.detector.digits.phase = .seeking) (hc : L.closedHalf.cls = .faxAnswer)
    (h : L.detector.captureAnswer = 59) : L.takeDetector programs =
      ({ L with
          detector := ⟨⟨.seeking, none, 0⟩, 0, 60, L.detector.playoutAnswer⟩
          pendingMode := if L.autoFax = true ∧ L.pendingMode = none then some ⟨.fax, .auto⟩ else L.pendingMode
          due := { L.due with detector := false } }, [.faxAnswer .localEnd]) := by
  have hstep : (L.setDigits ⟨.seeking, none, 0⟩).stepCalling .faxAnswer = ((L.setDigits ⟨.seeking, none, 0⟩).calling .faxAnswer, []) := by
    rw [Line.stepCalling_eq]
    exact if_neg fun h => nomatch h.1
  have hanswer : ((L.setDigits ⟨.seeking, none, 0⟩).calling .faxAnswer).stepCaptureAnswer .faxAnswer =
      ((((L.setDigits ⟨.seeking, none, 0⟩).calling .faxAnswer).answering .faxAnswer).autoFaxAction, [.faxAnswer .localEnd]) := by
    rw [Line.stepCaptureAnswer_eq]
    exact if_pos ⟨rfl, h⟩
  rw [Line.takeDetector, Line.stepDetector_voice hm, hc, Line.stepDigits_ends (c := .faxAnswer) hs (fun _ h => nomatch h), hstep, hanswer,
    Line.autoFaxAction_eq (L := ((L.setDigits ⟨.seeking, none, 0⟩).calling .faxAnswer).answering .faxAnswer) hm]
  simp [Line.answering, Line.calling, Line.setDigits, h]

/-! ### The class of a cell by its level -/

theorem classify_silence : classify (List.replicate 40 0) = .none := if_pos rfl

theorem measuredClass_loud {m : CellMeasure} {cell : List Sample} (h : loudEnough cell = true) : measuredClass m cell ≠ .none := by
  unfold measuredClass
  rw [if_pos h]
  split
  · exact nofun
  · split
    · exact nofun
    · split
      · exact nofun
      · exact nofun

theorem classify_loud {cell : List Sample}
    (h : (20 * 32767 ^ 2) ^ 5 ≤ ((cell.map fun x => x.toInt.natAbs ^ 2).sum) ^ 5 * 10 ^ 24) : classify cell ≠ .none := by
  have hloud : loudEnough cell = true := decide_eq_true h
  have hne : cell ≠ silence := by
    rintro rfl
    exact absurd h (by decide)
  rw [classify, if_neg hne]
  exact measuredClass_loud hloud

end Detector

end Sys2Proof.Machine
end

section
/-! The load of a half (5.2 to 5.4) by its stages: what it leaves of its line, where its cell goes, what it queues (R10, R22, R24, R35, R71 to
R82). -/

namespace Sys2Proof.Machine

/-! ### The stages of a load -/

section Stages

variable {L : Line} {i : LoadInput}

/-- The line as stage 3 finds it. -/
def Line.contented (L : Line) (i : LoadInput) : Line := L.stageMode.1.stageContent i.slot

/-- Stage 3 of the load: the line after it and its records. -/
def Line.rendered (L : Line) (i : LoadInput) : LineStep := (L.contented i).stageRender i

/-- The samples that the load puts into its half. -/
def Line.playedCell (L : Line) (i : LoadInput) : List Sample := (L.contented i).finalCell i (L.stageMode.1.content i.slot i.pattern)

/-- The slip of the half that the load fills. -/
def Line.playedSlip (L : Line) (i : LoadInput) : Int := (L.rendered i).1.slipOfCell (L.contented i).carriesOutput (L.playedCell i)

/-- The line after the slip stage. -/
def Line.slipped (L : Line) (i : LoadInput) : Line := (L.rendered i).1.stageSlip (L.contented i).carriesOutput (L.playedCell i)

/-- Stage 6 of the load. -/
def Line.fed (L : Line) (i : LoadInput) : LineStep := (L.slipped i).stageFeed (L.playedCell i)

/-- The line with its half loaded, before the margin window. -/
def Line.halved (L : Line) (i : LoadInput) : Line := (L.fed i).1.stageLoad (L.playedCell i) (L.playedSlip i)

/-- The load is taken from the works due. -/
def Line.withoutLoad (L : Line) : Line := { L with due := { L.due with load := false } }

theorem Line.loadCell_eq : L.loadCell i =
    (L.touchMark (L.halved i).stageWindow.withoutLoad, L.stageMode.2 ++ (L.rendered i).2 ++ (L.fed i).2) := (rfl)

theorem Line.halved_eq : L.halved i = { (L.fed i).1.setHalf (L.fed i).1.playing.other ⟨L.playedCell i, (L.fed i).1.horizon, L.playedSlip i⟩ with
    horizon := (L.fed i).1.horizon + 40, hs := ((L.fed i).1.hs + 1) % (L.fed i).1.lp } := (rfl)

theorem Line.rendered_staged (i : LoadInput) : Line.Staged L (L.rendered i).1 :=
  L.stageMode_calls.staged.trans ((Line.stageContent_staged _ i.slot).trans (Line.stageRender_staged _ i))

theorem Line.slipped_staged (i : LoadInput) : Line.Staged L (L.slipped i) :=
  (L.rendered_staged i).trans (Line.stageSlip_staged _ _ _)

theorem Line.fed_staged (i : LoadInput) : Line.Staged L (L.fed i).1 := (L.slipped_staged i).trans (Line.stageFeed_calls _ _).staged

theorem Line.setHalf_frame (h : HalfId) (x : PlayHalf) : ∃ playFirst playSecond,
    L.setHalf h x = { L with playFirst := playFirst, playSecond := playSecond } := by
  cases h <;> exact ⟨_, _, rfl⟩

/-- Stages 7 and 8 reach the halves, the horizon, the pending slip and the window, and the mark and the work due close the load. -/
theorem Line.loadCell_fed (L : Line) (i : LoadInput) : ∃ playFirst playSecond horizon hs pendingSlip window mark due, (L.loadCell i).1 =
    { (L.fed i).1 with
      playFirst := playFirst, playSecond := playSecond, horizon := horizon, hs := hs, pendingSlip := pendingSlip, window := window
      mark := mark, due := due } := by
  rw [Line.loadCell_eq]
  obtain ⟨_, _, hw⟩ := (L.halved i).stageWindow_frame
  rw [hw, Line.halved_eq]
  obtain ⟨_, _, hh⟩ := (L.fed i).1.setHalf_frame (L.fed i).1.playing.other ⟨L.playedCell i, (L.fed i).1.horizon, L.playedSlip i⟩
  rw [hh]
  exact ⟨_, _, _, _, _, _, _, _, rfl⟩

/-- What the stages after rendering reach. -/
theorem Line.loadCell_rendered (L : Line) (i : LoadInput) :
    ∃ pendingMode detector patience stats playFirst playSecond horizon hs pendingSlip window mark due, (L.loadCell i).1 =
    { (L.rendered i).1 with
      pendingMode := pendingMode, detector := detector, patience := patience, stats := stats, playFirst := playFirst
      playSecond := playSecond, horizon := horizon, hs := hs, pendingSlip := pendingSlip, window := window, mark := mark, due := due } := by
  obtain ⟨_, _, _, _, _, _, _, _, h⟩ := L.loadCell_fed i
  obtain ⟨_, _, hf⟩ := (L.slipped i).stageFeed_frame (L.playedCell i)
  obtain ⟨_, _, _, hs⟩ := (L.rendered i).1.stageSlip_frame (L.contented i).carriesOutput (L.playedCell i)
  rw [h, Line.fed, hf, Line.slipped, hs]
  exact ⟨_, _, _, _, _, _, _, _, _, _, _, _, rfl⟩

theorem Line.half_setHalf_same (h : HalfId) (x : PlayHalf) : (L.setHalf h x).half h = x := by
  cases h <;> rfl

theorem Line.half_setHalf_other (h : HalfId) (x : PlayHalf) : (L.setHalf h.other x).half h = L.half h := by
  cases h <;> rfl

/-- The halves after a load are those of stage 7. -/
theorem Line.loadCell_half (L : Line) (i : LoadInput) (h : HalfId) : (L.loadCell i).1.half h =
    ((L.fed i).1.setHalf (L.fed i).1.playing.other ⟨L.playedCell i, (L.fed i).1.horizon, L.playedSlip i⟩).half h := by
  rw [Line.loadCell_eq]
  obtain ⟨_, _, hw⟩ := (L.halved i).stageWindow_frame
  rw [hw]
  cases h <;> rfl

theorem Line.loadCell_loaded (L : Line) (i : LoadInput) :
    (L.loadCell i).1.half L.playing.other = ⟨L.playedCell i, L.horizon, L.playedSlip i⟩ := by
  rw [Line.loadCell_half]
  obtain ⟨_, _, _, _, _, _, _, _, _, _, _, _, _, _, _, _, hf, -⟩ := L.fed_staged i
  rw [hf]
  exact Line.half_setHalf_same _ _

theorem Line.loadCell_playing (L : Line) (i : LoadInput) : (L.loadCell i).1.half L.playing = L.half L.playing := by
  rw [Line.loadCell_half]
  obtain ⟨_, _, _, _, _, _, _, _, _, _, _, _, _, _, _, _, hf, -⟩ := L.fed_staged i
  rw [hf]
  exact Line.half_setHalf_other _ _

theorem Line.loadCell_markRule (L : Line) (i : LoadInput) : L.MarkRule (L.loadCell i).1 := by
  rw [Line.loadCell_eq]
  refine Line.markRule_touchMark ?_
  obtain ⟨_, _, hw⟩ := (L.halved i).stageWindow_frame
  obtain ⟨_, _, hh⟩ := (L.fed i).1.setHalf_frame (L.fed i).1.playing.other ⟨L.playedCell i, (L.fed i).1.horizon, L.playedSlip i⟩
  obtain ⟨_, _, _, _, _, _, _, _, _, _, _, _, _, _, _, _, hf, -⟩ := L.fed_staged i
  rw [hw, Line.halved_eq, hh, hf]
  rfl

/-- The line after a load, but for what its stages reach. -/
theorem Line.loadCell_line (L : Line) (i : LoadInput) : ∃ N, N = (L.loadCell i).1 ∧ N = { L with
    mode := N.mode, pendingMode := N.pendingMode, horizon := N.horizon, hs := N.hs
    anchors := N.anchors, playout := N.playout, run := N.run, repeatBuffer := N.repeatBuffer
    pendingSlip := N.pendingSlip, patience := N.patience, window := N.window, stats := N.stats
    playFirst := N.playFirst, playSecond := N.playSecond, background := N.background
    foreground := N.foreground, mark := N.mark, cid := N.cid, ring := N.ring
    detector := N.detector, due := { L.due with load := false, ring := N.due.ring } } := by
  refine ⟨_, rfl, ?_⟩
  obtain ⟨cell, slip, mark, _, _, _, _, _, _, _, _, _, _, _, _, _, _, _, _, hl, -⟩ := L.loadCell_frame i
  obtain ⟨_, _, hh⟩ := L.setHalf_frame L.playing.other ⟨cell, L.horizon, slip⟩
  rw [hl, hh]

/-! ### The store -/

theorem Store.read_erase_other {a b : Nat} (hb : b ≠ a) : ∀ st : Store, (st.erase a).read b = st.read b
  | [] => rfl
  | (k, c) :: rest => by
    unfold Store.erase
    split
    next hk => exact (if_neg (by omega)).symm
    next hk =>
      split
      · rfl
      · show (if k = b then c else _) = if k = b then c else _
        rw [Store.read_erase_other hb rest]

/-- A write leaves every other cell as it was, whatever form the store has. -/
theorem Store.read_write_other {st : Store} {a b : Nat} (c : StoreCell) (hb : b ≠ a) : (st.write a c).read b = st.read b := by
  unfold Store.write
  split
  · rfl
  · split
    · exact Store.read_erase_other hb st
    · exact (Store.read_insert a b c st).trans (if_neg hb)

theorem Store.read_write_reset {st : Store} (a : Nat) (h : st.wf = true) : (st.write a .reset).read a = .reset := by
  by_cases ha : a < 1024
  · rw [Store.read_write a _ h ha, if_pos rfl]
  · rw [Store.write, if_pos (by omega), Store.read_beyond h (by omega)]

/-! ### The frame of a load (O33) -/

variable {s : State} {l : Fin 4}

theorem exec_load (hl : s.resetLow = false) (hd : (s.line l).loadDue = true) : exec (.load l) s = .next (s.loadLine l) :=
  (State.next_high hl).trans (congrArg Host.Outcome.next (if_pos hd))

theorem State.line_loadLine (s : State) (l : Fin 4) : (s.loadLine l).line l = ((s.line l).loadCell (s.loadInput l)).1 := by
  rw [State.loadLine, State.line_commitLine, if_pos rfl]

theorem State.queue_response (s : State) (l : Fin 4) (stamp : Word32) (es : List Event) :
    (s.queue l stamp es).cLink.response = s.cLink.response := by
  induction es generalizing s with
  | nil => rfl
  | cons e es ih => exact (ih _).trans (by unfold State.arrive; split <;> rfl)

theorem State.loadFrame (s : State) (l : Fin 4) : s.LoadFrame (s.loadLine l) l := by
  have hline := s.line_loadLine l
  have ht := (s.line l).loadCell_timeline (s.loadInput l)
  constructor
  case others =>
    intro k hk
    rw [State.loadLine, State.line_commitLine, if_neg hk]
    rfl
  case part => exact ((State.PartKept.refl.setStore _).setLine l _).queue l s.g _
  case store =>
    intro a ha
    rw [State.loadLine, State.commitLine, State.queue_store]
    exact Store.read_write_other StoreCell.reset ha
  case mLink => simp [State.loadLine, State.commitLine]
  case response => exact State.queue_response _ _ _ _
  case line =>
    obtain ⟨N, hN, h⟩ := (s.line l).loadCell_line (s.loadInput l)
    rw [hline, ← hN]
    exact h
  case advance => rw [hline]; exact ⟨ht.horizon, ht.hs⟩
  case playing => rw [hline]; exact Line.loadCell_playing _ _
  case mark => rw [hline]; exact Line.loadCell_markRule _ _

theorem Line.playedSlip_cases (L : Line) (i : LoadInput) : L.playedSlip i = -1 ∨ L.playedSlip i = 0 ∨ L.playedSlip i = 1 := by
  unfold Line.playedSlip Line.slipOfCell
  split
  · obtain h | h | h := Int.lt_trichotomy (L.rendered i).1.pendingSlip 0
    · exact .inl (Int.sign_eq_neg_one_of_neg h)
    · exact .inr (.inl (Int.sign_eq_zero_iff_zero.2 h))
    · exact .inr (.inr (Int.sign_eq_one_of_pos h))
  · exact .inr (.inl rfl)

/-- Settles O33: the frame of a load, its cell in the half that is not playing, and its slot EMPTY. -/
theorem loadAdvancesHorizon : Obligations.LoadAdvancesHorizon := by
  intro s l hl hd
  refine ⟨_, exec_load hl hd, s.loadFrame l, ?_, ?_, fun hs => ?_⟩
  · rw [State.line_loadLine, Line.loadCell_loaded]
  · rw [State.line_loadLine, Line.loadCell_loaded]
    exact Line.playedSlip_cases _ _
  · rw [State.loadLine, State.commitLine, State.queue_store]
    exact Store.read_write_reset _ hs

end Stages
end Sys2Proof.Machine
end

section
/-! What a load plays: the content of its cell or concealment, the slip rule, the margin window, STARVED, and the played side of the fax-tone
machines (R35, R71 to R79, R82, R165, R166). -/

namespace Sys2Proof.Machine

section Load

variable {L : Line} {i : LoadInput} {s : State} {l : Fin 4}

/-! ### What the stages read -/

theorem Line.stageMode_none (h : L.pendingMode = none) : L.stageMode = (L, []) := by rw [Line.stageMode, h]

theorem Line.contented_eq (h : L.pendingMode = none) : L.contented i = L.stageContent i.slot := by rw [Line.contented, Line.stageMode_none h]

theorem Line.activeContext_stageContent (slot : StoreCell) : (L.stageContent slot).activeContext = L.activeContext := by
  obtain ⟨_, _, _, _, _, h⟩ := L.stageContent_frame slot
  rw [h]
  rfl

theorem Line.activeContext_none (h : L.NoContexts) : L.activeContext = none := by
  unfold Line.activeContext
  rw [h.1, h.2]
  rfl

/-- With no pending mode and no ACTIVE context a load renders nothing. -/
theorem Line.rendered_quiet (hp : L.pendingMode = none) (ha : L.activeContext = none) : L.rendered i = (L.stageContent i.slot, []) := by
  rw [Line.rendered, Line.contented_eq hp, Line.stageRender, Line.activeContext_stageContent, ha]

theorem Line.playedCell_quiet (hp : L.pendingMode = none) (ha : L.activeContext = none) : L.playedCell i = L.content i.slot i.pattern := by
  rw [Line.playedCell, Line.contented_eq hp, Line.finalCell, Line.activeContext_stageContent, ha, Line.stageMode_none hp]

theorem Line.carriesOutput_eq (hp : L.pendingMode = none) : (L.contented i).carriesOutput = L.activeContext.isSome := by
  rw [Line.carriesOutput, Line.contented_eq hp, Line.activeContext_stageContent]

/-- What the stages up to rendering leave alone of a line with no pending mode. -/
theorem Line.rendered_frame (L : Line) (i : LoadInput) : ∃ mode pendingMode detector foreground background ring cid due run stats playout anchors
    repeatBuffer, (L.rendered i).1 = { L with
      mode := mode, pendingMode := pendingMode, detector := detector, foreground := foreground, background := background, ring := ring
      cid := cid, due := due, run := run, stats := stats, playout := playout, anchors := anchors, repeatBuffer := repeatBuffer } := by
  obtain ⟨_, _, _, _, _, _, _, _, hm, -⟩ := L.stageMode_calls
  obtain ⟨_, _, _, _, _, hc⟩ := L.stageMode.1.stageContent_frame i.slot
  obtain ⟨_, _, _, _, _, _, _, _, _, hr, -⟩ := (L.contented i).stageRender_calls i
  rw [Line.rendered, hr, Line.contented, hc, hm]
  exact ⟨_, _, _, _, _, _, _, _, _, _, _, _, _, rfl⟩

/-! ### Pending slip and window (R77 to R79, R82) -/

theorem foldl_max_le {α : Type} (f : α → Nat) (q : Nat) : ∀ (xs : List α) (m : Nat),
    xs.foldl (fun m x => max m (f x)) m ≤ q ↔ m ≤ q ∧ ∀ x ∈ xs, f x ≤ q
  | [], m => by simp
  | x :: xs, m => by
    rw [List.foldl_cons, foldl_max_le f q xs]
    simp only [List.mem_cons, forall_eq_or_imp, Nat.max_le]
    tauto

theorem quiet_iff {q : Nat} {cell : List Sample} : quiet q cell = true ↔ ∀ x ∈ cell, x.toInt.natAbs ≤ q := by
  rw [quiet, decide_eq_true_iff, peak, foldl_max_le magnitude]
  exact ⟨fun h => h.2, fun h => ⟨Nat.zero_le q, h⟩⟩

theorem Line.slips_iff {cell : List Sample} : L.slips false cell = true ↔ L.pendingSlip ≠ 0 ∧
    ((∀ x ∈ cell, x.toInt.natAbs ≤ L.config.quiet) ∨ (L.mode = .voice ∧ L.config.patience ≤ L.patience)) := by
  simp [Line.slips, quiet_iff]

theorem Line.slips_output {cell : List Sample} : L.slips true cell = false := by
  simp [Line.slips]

/-- What is left of the pending slip after the slip stage: the cell has taken its slip. -/
theorem Line.stageSlip_pendingSlip (output : Bool) (cell : List Sample) :
    (L.stageSlip output cell).pendingSlip = L.pendingSlip - L.slipOfCell output cell := by
  unfold Line.stageSlip Line.slipOfCell
  split
  · rfl
  · exact (Int.sub_zero _).symm

theorem Line.windowSlip_windowed (hw : L.closesWindow = true) : clampSlip (L.pendingSlip + L.windowSlip) = L.windowed L.pendingSlip := by
  have hc : ¬L.window.counter + 1 < L.config.window := by
    have := of_decide_eq_true hw
    omega
  rw [clampSlip_eq, Line.windowed, if_neg hc]
  unfold Line.windowSlip
  cases ha : L.config.autoSlip with
  | false => rfl
  | true =>
    cases hm : L.window.minimum with
    | none => rfl
    | some m =>
      have hk : (if m < L.config.lowWater then (1 : Int) else if (L.config.highWater : Int) < m then -1 else 0) =
          if m < L.config.lowWater then 1 else if m ≤ L.config.highWater then 0 else -1 := by
        split
        · rfl
        · split
          · rw [if_neg (by omega)]
          · rw [if_pos (by omega)]
      show max (-40) (min 40 (L.pendingSlip + _)) = _
      exact congrArg (fun x => max (-40) (min 40 (L.pendingSlip + x))) hk

theorem Line.stageWindow_pendingSlip : L.stageWindow.pendingSlip = L.windowed L.pendingSlip := by
  unfold Line.stageWindow
  split
  next h => exact Line.windowSlip_windowed h
  next h =>
    refine (if_pos ?_).symm
    have : ¬L.config.window ≤ L.window.counter + 1 := fun hle => h (decide_eq_true hle)
    omega

theorem Line.stageWindow_window (h : L.config.window ≤ L.window.counter + 1) : L.stageWindow.window = ⟨0, none, L.window.minimum⟩ := by
  unfold Line.stageWindow
  rw [if_pos (show L.closesWindow = true from decide_eq_true h)]

/-- The line before the margin window has the window, the configuration and the pending slip that the slip stage left. -/
theorem Line.halved_window (L : Line) (i : LoadInput) : (L.halved i).window = L.window ∧ (L.halved i).config = L.config ∧
    (L.halved i).pendingSlip = L.pendingSlip - L.playedSlip i := by
  obtain ⟨_, _, hh⟩ := (L.fed i).1.setHalf_frame (L.fed i).1.playing.other ⟨L.playedCell i, (L.fed i).1.horizon, L.playedSlip i⟩
  obtain ⟨_, _, hf⟩ := (L.slipped i).stageFeed_frame (L.playedCell i)
  have hp : (L.slipped i).pendingSlip = L.pendingSlip - L.playedSlip i := by
    rw [Line.slipped, Line.stageSlip_pendingSlip]
    obtain ⟨_, _, _, _, _, _, _, _, _, _, _, _, _, hr⟩ := L.rendered_frame i
    exact congrArg (· - L.playedSlip i) (by rw [hr])
  obtain ⟨_, _, _, hs⟩ := (L.rendered i).1.stageSlip_frame (L.contented i).carriesOutput (L.playedCell i)
  obtain ⟨_, _, _, _, _, _, _, _, _, _, _, _, _, hr⟩ := L.rendered_frame i
  have hwc : (L.slipped i).window = L.window ∧ (L.slipped i).config = L.config := by
    rw [Line.slipped, hs, hr]
    exact ⟨rfl, rfl⟩
  rw [Line.halved_eq, hh, Line.fed, hf]
  exact ⟨hwc.1, hwc.2, hp⟩

theorem Line.loadCell_windowed (L : Line) (i : LoadInput) : (L.loadCell i).1.pendingSlip = (L.halved i).stageWindow.pendingSlip ∧
    (L.loadCell i).1.window = (L.halved i).stageWindow.window := by
  rw [Line.loadCell_eq]
  generalize (L.halved i).stageWindow = W
  exact ⟨rfl, rfl⟩

theorem Line.loadCell_pendingSlip (L : Line) (i : LoadInput) :
    (L.loadCell i).1.pendingSlip = L.windowed (L.pendingSlip - L.playedSlip i) := by
  obtain ⟨hw, hc, hp⟩ := L.halved_window i
  rw [(L.loadCell_windowed i).1, Line.stageWindow_pendingSlip, hp, Line.windowed, Line.windowed, hw, hc]

theorem Line.loadCell_window (h : L.config.window ≤ L.window.counter + 1) : (L.loadCell i).1.window = ⟨0, none, L.window.minimum⟩ := by
  obtain ⟨hw, hc, -⟩ := L.halved_window i
  rw [(L.loadCell_windowed i).2, Line.stageWindow_window (by rw [hw, hc]; exact h), hw]

theorem Line.loadCell_slipped (L : Line) (i : LoadInput) : (L.loadCell i).1.patience = (L.slipped i).patience ∧
    (L.loadCell i).1.stats = (L.slipped i).stats := by
  obtain ⟨_, _, _, _, _, _, _, _, h⟩ := L.loadCell_fed i
  obtain ⟨_, _, hf⟩ := (L.slipped i).stageFeed_frame (L.playedCell i)
  rw [h, Line.fed, hf]
  exact ⟨rfl, rfl⟩

theorem Line.stageContent_slips (L : Line) (slot : StoreCell) : (L.stageContent slot).stats.slipsPlus = L.stats.slipsPlus ∧
    (L.stageContent slot).stats.slipsMinus = L.stats.slipsMinus := by
  unfold Line.stageContent Line.emptyLoaded
  dsimp only
  split
  · exact ⟨rfl, rfl⟩
  · split <;> dsimp only <;> split <;> exact ⟨rfl, rfl⟩

/-- The slip rule holds of every load whose cell carries no generator output. -/
theorem Line.loadCell_slipRule (hp : L.pendingMode = none) (ha : L.activeContext = none) : L.SlipRule (L.loadCell i).1 := by
  rintro h may rfl hmay
  have hR : (L.rendered i).1 = L.stageContent i.slot := by rw [Line.rendered_quiet hp ha]
  have hout : (L.contented i).carriesOutput = false := by rw [Line.carriesOutput_eq hp, ha]; rfl
  obtain ⟨hplus, hminus⟩ := L.stageContent_slips i.slot
  have hframe : (L.stageContent i.slot).pendingSlip = L.pendingSlip ∧ (L.stageContent i.slot).config = L.config ∧
      (L.stageContent i.slot).mode = L.mode ∧ (L.stageContent i.slot).patience = L.patience := by
    obtain ⟨_, _, _, _, _, hc⟩ := L.stageContent_frame i.slot
    rw [hc]
    exact ⟨rfl, rfl, rfl, rfl⟩
  obtain ⟨hpend, hconf, hmode, hpat⟩ := hframe
  have hslips : (L.stageContent i.slot).slips false (L.playedCell i) = true ↔ L.pendingSlip ≠ 0 ∧ may := by
    rw [Line.slips_iff, hpend, hconf, hmode, hpat, hmay, Line.loadCell_loaded]
  obtain ⟨hpatience, hstats⟩ := L.loadCell_slipped i
  have hslip : L.playedSlip i = (L.stageContent i.slot).slipOfCell false (L.playedCell i) := by rw [Line.playedSlip, hR, hout]
  rw [hpatience, hstats, Line.loadCell_pendingSlip, Line.loadCell_loaded, Line.slipped, hR, hout, hslip]
  refine ⟨fun hpos hm => ?_, fun hneg hm => ?_, fun hno => ?_⟩
  · have hs := hslips.2 ⟨by omega, hm⟩
    have hsign : (L.stageContent i.slot).slipOfCell false (L.playedCell i) = 1 := by
      rw [Line.slipOfCell, if_pos hs, hpend, Int.sign_eq_one_of_pos hpos]
    rw [hsign, Line.stageSlip, if_pos hs, hpend, if_pos hpos]
    exact ⟨rfl, rfl, rfl, congrArg (countUp 65535) hplus, hminus⟩
  · have hs := hslips.2 ⟨by omega, hm⟩
    have hsign : (L.stageContent i.slot).slipOfCell false (L.playedCell i) = -1 := by
      rw [Line.slipOfCell, if_pos hs, hpend, Int.sign_eq_neg_one_of_neg hneg]
    rw [hsign, Line.stageSlip, if_pos hs, hpend, if_neg (by omega)]
    exact ⟨rfl, rfl, rfl, congrArg (countUp 65535) hminus, hplus⟩
  · have hs : ¬(L.stageContent i.slot).slips false (L.playedCell i) = true := by
      rw [hslips]
      tauto
    rw [Line.slipOfCell, if_neg hs, Line.stageSlip, if_neg hs, hpend, hpat, Int.sub_zero]
    exact ⟨rfl, rfl, hplus, hminus, rfl⟩

/-! ### Content and concealment (O35, O36) -/

theorem Line.stageContent_filled {slot : StoreCell} (h : slot.filled = true) : L.stageContent slot = L.filledLoaded slot := if_pos h

theorem Line.stageContent_empty {slot : StoreCell} (h : slot.filled = false) : L.stageContent slot = L.emptyLoaded :=
  if_neg (by rw [h]; exact Bool.false_ne_true)

theorem Line.content_empty {slot : StoreCell} {pattern : List Sample} (h : slot.filled = false) :
    L.content slot pattern = L.conceal pattern (countUp 65535 L.run) := if_neg (by rw [h]; exact Bool.false_ne_true)

theorem attenuate_succ (k : Nat) (cell : List Sample) :
    attenuate (k + 1) cell = cell.map fun x => BitVec.ofInt 16 ((x.toInt + 2 ^ k) / 2 ^ (k + 1)) := by
  simp only [attenuate, shiftRound_succ_eq_ediv]

theorem Line.conceal_idle {pattern : List Sample} {run : Nat} (h : L.playout = .idle) : L.conceal pattern run = silence := by
  simp only [Line.conceal, h]

theorem Line.conceal_fax {pattern : List Sample} {run : Nat} (h : L.mode = .fax) : L.conceal pattern run = silence := by
  cases hp : L.playout <;> simp only [Line.conceal, h, hp]

theorem Line.conceal_repeat {pattern b : List Sample} {run : Nat} (hp : L.playout = .running) (hm : L.mode = .voice)
    (hb : L.repeatBuffer = some b) (h : run ≤ 4) : L.conceal pattern run = attenuate run b := by
  simp only [Line.conceal, hp, hm, hb, if_pos h]

theorem Line.conceal_pattern {pattern : List Sample} {run : Nat} (hp : L.playout = .running) (hm : L.mode = .voice)
    (h : L.repeatBuffer = none ∨ 4 < run) : L.conceal pattern run = transform false L.config.fillGain pattern := by
  cases hb : L.repeatBuffer with
  | none => simp only [Line.conceal, hp, hm, hb]
  | some b =>
    have hr : ¬run ≤ 4 := by
      have := h.resolve_left (by rw [hb]; exact nofun)
      omega
    simp only [Line.conceal, hp, hm, hb, if_neg hr]

theorem Line.conceal_starved {pattern : List Sample} {run : Nat} (hp : L.playout = .starved) (hm : L.mode = .voice) :
    L.conceal pattern run = transform false L.config.fillGain pattern := by
  simp only [Line.conceal, hp, hm]

theorem Line.emptyLoaded_eq : L.emptyLoaded = { L with
    run := countUp 65535 L.run
    stats := if L.playout = .idle then L.stats else { L.stats with concealed := countUp 65535 L.stats.concealed }
    playout := if L.starves then .starved else L.playout
    anchors := if L.starves ∧ L.mode = .voice then L.anchors.map Anchor.goStale else L.anchors } := by
  unfold Line.emptyLoaded
  by_cases h : L.starves = true
  · simp only [h, if_true, true_and]
  · simp only [h, Bool.false_eq_true, if_false, false_and]

theorem Line.starves_iff : L.starves = true ↔ L.playout = .running ∧ L.config.starve ≤ min 65535 (L.run + 1) := by
  simp [Line.starves, countUp_eq_min]

theorem Line.loadCell_concealed (L : Line) (i : LoadInput) : (L.loadCell i).1.stats.concealed = (L.rendered i).1.stats.concealed ∧
    (L.loadCell i).1.stats.suppressed = (L.rendered i).1.stats.suppressed := by
  rw [(L.loadCell_slipped i).2, Line.slipped]
  unfold Line.stageSlip
  split
  · dsimp only
    split <;> exact ⟨rfl, rfl⟩
  · exact ⟨rfl, rfl⟩

/-- What the content stage leaves of the playout is what the load leaves of it, whatever the cell carries. -/
theorem Line.loadCell_content (hp : L.pendingMode = none) : (L.loadCell i).1.playout = (L.stageContent i.slot).playout ∧
    (L.loadCell i).1.anchors = (L.stageContent i.slot).anchors ∧ (L.loadCell i).1.run = (L.stageContent i.slot).run ∧
    (L.loadCell i).1.repeatBuffer = (L.stageContent i.slot).repeatBuffer := by
  obtain ⟨_, _, _, _, _, _, _, _, _, _, _, _, h⟩ := L.loadCell_rendered i
  obtain ⟨_, _, _, _, _, _, _, _, _, hr, -⟩ := (L.contented i).stageRender_calls i
  rw [h, Line.rendered, hr, Line.contented_eq hp]
  exact ⟨rfl, rfl, rfl, rfl⟩

/-- The load of a line with nothing pending and no context is its content stage and the slip rule. -/
theorem Line.loadCell_plain_content (hp : L.pendingMode = none) (hn : L.NoContexts) : ∃ N, N = (L.loadCell i).1 ∧
    (N.half L.playing.other).samples = L.content i.slot i.pattern ∧ N.run = (L.stageContent i.slot).run ∧
    N.playout = (L.stageContent i.slot).playout ∧ N.repeatBuffer = (L.stageContent i.slot).repeatBuffer ∧
    N.stats.concealed = (L.stageContent i.slot).stats.concealed ∧ L.SlipRule N := by
  refine ⟨_, rfl, ?_⟩
  have ha := L.activeContext_none hn
  have hR : (L.rendered i).1 = L.stageContent i.slot := by rw [Line.rendered_quiet hp ha]
  obtain ⟨hplayout, -, hrun, hrepeat⟩ := Line.loadCell_content (i := i) hp
  rw [(L.loadCell_concealed i).1, L.loadCell_loaded]
  exact ⟨Line.playedCell_quiet hp ha, hrun, hplayout, hrepeat, congrArg (·.stats.concealed) hR, Line.loadCell_slipRule hp ha⟩

/-- Settles O35: concealment by the playout state before the load, its mode and the run after its increase. -/
theorem emptySlotConceals : Obligations.EmptySlotConceals := by
  rintro s l ⟨hl, hd, hp⟩ hn hempty hrun
  refine ⟨_, exec_load hl hd, ?_⟩
  beta_reduce
  rw [State.line_loadLine]
  obtain ⟨N, hN, hcell, hrunN, hplayout, hrepeat, hconcealed, hslip⟩ := Line.loadCell_plain_content (i := s.loadInput l) hp hn
  rw [← hN]
  rw [Line.stageContent_empty hempty, Line.emptyLoaded_eq] at hrunN hplayout hrepeat hconcealed
  rw [Line.content_empty hempty, countUp_eq_min] at hcell
  dsimp only at hrunN hplayout hrepeat hconcealed
  have hnot {x : PlayoutState} (h : (s.line l).playout = x) (hx : x ≠ .running) : ¬(s.line l).starves = true := fun hs =>
    hx (h.symm.trans (Line.starves_iff.1 hs).1)
  refine ⟨hrunN.trans (countUp_eq_min _ _), fun hi => ⟨?_, ?_, ?_⟩, fun hi hle => ?_, fun hi hm => ?_, fun b hr hm hb h4 => ?_, fun hr hm h4 => ?_,
    fun hs hm => ?_, hrepeat, hslip⟩
  · rw [hcell, Line.conceal_idle hi]
    rfl
  · rw [hconcealed, if_pos hi]
  · rw [hplayout, if_neg (hnot hi nofun), hi]
  · rw [hconcealed, if_neg hi]
    exact countUp_eq_min _ _
  · rw [hcell, Line.conceal_fax hm]
    rfl
  · rw [hcell, Nat.min_eq_right (by omega), Line.conceal_repeat hr hm hb (by omega), attenuate_succ]
  · rw [hcell, Line.conceal_pattern hr hm (h4.imp_right fun h => by omega)]
    rfl
  · rw [hcell, Line.conceal_starved hs hm]
    rfl

/-- Settles O36: the content stage of a FILLED slot, and the slip rule of any load. -/
theorem filledSlotPlaysAndSlips : Obligations.FilledSlotPlaysAndSlips := by
  rintro s l ⟨hl, hd, hp⟩ hn hfilled
  refine ⟨_, exec_load hl hd, ?_⟩
  beta_reduce
  rw [State.line_loadLine]
  obtain ⟨N, hN, hcell, hrun, hplayout, hrepeat, hconcealed, hslip⟩ := Line.loadCell_plain_content (i := s.loadInput l) hp hn
  rw [← hN]
  rw [Line.stageContent_filled hfilled, Line.filledLoaded] at hrun hplayout hrepeat hconcealed
  have hmedia : (s.loadInput l).slot.holdsMedia = (s.loadInput l).slot.slot.kinds.media := by
    rw [StoreCell.holdsMedia, hfilled, Bool.true_and]
  rw [hmedia] at hrepeat
  dsimp only at hrun hplayout hrepeat hconcealed
  refine ⟨hcell.trans (if_pos hfilled), hrun, fun hi => ?_, fun hm => ?_, fun hm => ?_, hconcealed, hslip⟩
  · rw [hplayout]
    cases h : (s.line l).playout with
    | idle => exact absurd h hi
    | running => rfl
    | starved => rfl
  · rw [hrepeat, if_pos hm]
  · rw [hrepeat, if_neg (by rw [hm]; exact Bool.false_ne_true)]

/-! ### STARVED and the margin window (O37) -/

theorem exec_starve (hl : s.resetLow = false) (h : s.willStarve l = true) : exec (.starve l) s = exec (.load l) s :=
  (State.next_high hl).trans ((congrArg Host.Outcome.next (if_pos h)).trans (State.next_high hl).symm)

theorem exec_windowClose (hl : s.resetLow = false) (h : (s.line l).closesWindow = true) : exec (.windowClose l) s = exec (.load l) s :=
  (State.next_high hl).trans ((congrArg Host.Outcome.next (if_pos h)).trans (State.next_high hl).symm)

theorem Line.windowed_closing {x : Int} (h : L.config.window ≤ L.window.counter + 1) : L.windowed x = max (-40) (min 40 (x +
    match L.config.autoSlip, L.window.minimum with
    | true, some m => if m < L.config.lowWater then 1 else if m ≤ L.config.highWater then 0 else -1
    | _, _ => 0)) := if_neg (by omega)

theorem Line.windowed_unasked {x : Int} (h : L.config.window ≤ L.window.counter + 1)
    (hn : L.config.autoSlip = false ∨ L.window.minimum = none) : L.windowed x = max (-40) (min 40 x) := by
  rw [Line.windowed_closing h]
  obtain ha | hm := hn
  · rw [ha, Int.add_zero]
  · rw [hm]
    cases L.config.autoSlip <;> rw [Int.add_zero]

theorem Line.windowed_asked {x m ask : Int} (h : L.config.window ≤ L.window.counter + 1) (ha : L.config.autoSlip = true)
    (hm : L.window.minimum = some m)
    (hask : (m < L.config.lowWater ∧ ask = 1) ∨ ((L.config.lowWater : Int) ≤ m ∧ m ≤ L.config.highWater ∧ ask = 0) ∨
      ((L.config.lowWater : Int) ≤ m ∧ (L.config.highWater : Int) < m ∧ ask = -1)) : L.windowed x = max (-40) (min 40 (x + ask)) := by
  have hk : (if m < L.config.lowWater then (1 : Int) else if m ≤ L.config.highWater then 0 else -1) = ask := by
    split
    · omega
    · split <;> omega
  rw [Line.windowed_closing h, ha, hm, ← hk]

/-- Settles O37: the load that enters STARVED by its content stage, and the one that closes the window by its last stage. -/
theorem loadStarvesAndClosesWindow : Obligations.LoadStarvesAndClosesWindow := by
  rintro s l ⟨hl, hd, hp⟩
  refine ⟨fun hempty hr hrun hk => ?_, fun hw => ?_⟩
  · have hs : (s.line l).starves = true := Line.starves_iff.2 ⟨hr, hk⟩
    have hwill : s.willStarve l = true := by
      rw [State.willStarve, hempty, Line.stageMode_none hp, hs]
      rfl
    refine ⟨_, (exec_starve hl hwill).trans (exec_load hl hd), ?_⟩
    beta_reduce
    rw [State.line_loadLine]
    obtain ⟨hplayout, hanchors, -, -⟩ := Line.loadCell_content (i := s.loadInput l) hp
    rw [Line.stageContent_empty hempty, Line.emptyLoaded_eq] at hplayout hanchors
    dsimp only at hplayout hanchors
    rw [if_pos hs] at hplayout
    refine ⟨hplayout, s.loadFrame l, fun hm => ?_, fun hm m => ?_⟩
    · rw [hanchors, if_neg (by rw [hm]; exact fun h => nomatch h.2)]
    · rw [hanchors, if_pos ⟨hs, hm⟩, Four.get_map]
      refine ⟨fun o h => ?_, fun h => ?_, fun h => ?_⟩ <;> rw [h] <;> rfl
  · have hcloses : (s.line l).closesWindow = true := decide_eq_true hw
    refine ⟨_, (exec_windowClose hl hcloses).trans (exec_load hl hd), ?_, s.loadFrame l, ?_⟩
    · rw [State.line_loadLine, Line.loadCell_window hw]
    · rintro left ask rfl
      rw [State.line_loadLine, Line.loadCell_loaded, Line.loadCell_pendingSlip]
      exact ⟨fun h => Line.windowed_unasked hw h, fun m ha hm hask => Line.windowed_asked hw ha hm hask⟩

/-! ### The records of a load -/

/-- The records of a load, queued where there is room for them, with the global cell in which the load is taken. -/
theorem State.Room.loadQueued {es : List Event} (hroom : s.Room es.length) (he : ((s.line l).loadCell (s.loadInput l)).2 = es) :
    s.Queued (s.loadLine l) l s.g es s.cLink.response := by
  subst he
  obtain ⟨h1, h2, h3, h4, h5⟩ := (State.Room.commitLine (s := s.setStore (s.store.write (s.line l).slotCell .reset)) (l := l) (stamp := s.g)
    (r := (s.line l).loadCell (s.loadInput l)) hroom (recordOf_plain ((s.line l).loadCell_plain _) l s.g)).2.queued
  exact ⟨h1, h2, h3, h4, h5⟩

/-- Of `L`, `M` differs in its contexts, its CID buffer and its ringing alone. -/
def Line.SignalsOnly (L M : Line) : Prop := ∃ background foreground cid ring x,
  M = { L with background := background, foreground := foreground, cid := cid, ring := ring, due := { L.due with ring := x } }

theorem Line.SignalsOnly.trans {M N : Line} (h : L.SignalsOnly M) (g : M.SignalsOnly N) : L.SignalsOnly N := by
  obtain ⟨_, _, _, _, _, rfl⟩ := h
  obtain ⟨_, _, _, _, _, rfl⟩ := g
  exact ⟨_, _, _, _, _, rfl⟩

theorem Line.setContext_signalsOnly (v : Level) (c : Context) : L.SignalsOnly (L.setContext v c) := by
  cases v <;> exact ⟨_, _, _, _, _, rfl⟩

theorem Line.endOnHookCid_signalsOnly : L.SignalsOnly L.endOnHookCid := by
  unfold Line.endOnHookCid
  dsimp only
  split <;> exact ⟨_, _, _, _, _, rfl⟩

theorem Line.afterCid_signalsOnly : L.SignalsOnly L.afterCid.1 := by
  unfold Line.afterCid
  split
  · split <;> exact ⟨_, _, _, _, _, rfl⟩
  · split <;> exact ⟨_, _, _, _, _, rfl⟩
  · exact ⟨_, _, _, _, _, rfl⟩

theorem Line.renderStep_signalsOnly (tones : List ToneEntry) (programs : List ProgramRecord) (v : Level) (c : Context) :
    L.SignalsOnly (L.renderStep tones programs v c).1 := by
  unfold Line.renderStep
  split
  · split
    · exact Line.setContext_signalsOnly _ _
    · cases v <;> exact ⟨_, _, _, _, _, rfl⟩
  · dsimp only
    split
    · exact Line.endOnHookCid_signalsOnly.trans Line.afterCid_signalsOnly
    · exact Line.setContext_signalsOnly _ _
  · split
    · exact Line.setContext_signalsOnly _ _
    · exact ⟨_, _, _, _, _, rfl⟩

theorem Line.stageRender_signalsOnly (L : Line) (i : LoadInput) : ∃ stats, Line.SignalsOnly { L with stats := stats } (L.stageRender i).1 := by
  unfold Line.stageRender
  split
  · dsimp only
    split <;> exact ⟨_, Line.renderStep_signalsOnly _ _ _ _⟩
  · exact ⟨_, _, _, _, _, _, rfl⟩

/-- The slip stage finds the mode, the pending mode and the detector as the load found them, with no pending mode to apply. -/
theorem Line.slipped_detector (hp : L.pendingMode = none) : (L.slipped i).detector = L.detector ∧ (L.slipped i).mode = L.mode ∧
    (L.slipped i).pendingMode = none ∧ (L.slipped i).autoFax = L.autoFax := by
  obtain ⟨_, _, _, hs⟩ := (L.rendered i).1.stageSlip_frame (L.contented i).carriesOutput (L.playedCell i)
  obtain ⟨_, _, _, _, _, _, hr⟩ := (L.contented i).stageRender_signalsOnly i
  obtain ⟨_, _, _, _, _, hc⟩ := L.stageContent_frame i.slot
  rw [Line.slipped, hs, Line.rendered, hr, Line.contented_eq hp, hc]
  exact ⟨rfl, rfl, hp, rfl⟩

/-! ### The played side of the fax-answer machine (R165) -/

/-- The line with its playout fax-answer count after a cell. -/
def Line.hearing (L : Line) (c : CellClass) : Line :=
  { L with detector := { L.detector with playoutAnswer := if c = .faxAnswer then min 60 (L.detector.playoutAnswer + 1) else 0 } }

theorem Line.stepPlayoutAnswer_eq {c : CellClass} : L.stepPlayoutAnswer c = if c = .faxAnswer ∧ L.detector.playoutAnswer = 59
    then ((L.hearing c).autoFaxAction, [.faxAnswer .remoteEnd]) else (L.hearing c, []) := by
  unfold Line.stepPlayoutAnswer Line.hearing
  simp only [runCount_eq, completes_iff, beq_iff_eq]

theorem Line.stageFeed_voice (hm : L.mode = .voice) (cell : List Sample) : L.stageFeed cell = L.stepPlayoutAnswer (classify cell) := by
  simp only [Line.stageFeed, hm]

theorem Line.stageFeed_fax (hm : L.mode = .fax) (cell : List Sample) : L.stageFeed cell = (L, []) := by
  simp only [Line.stageFeed, hm]

theorem Line.fed_hears (hp : L.pendingMode = none) (hm : L.mode = .voice) (h : L.detector.playoutAnswer = 59)
    (hc : classify (L.playedCell i) = .faxAnswer) : (L.fed i).2 = [.faxAnswer .remoteEnd] ∧ (L.fed i).1.detector.playoutAnswer = 60 ∧
      (L.fed i).1.pendingMode = if L.autoFax = true then some ⟨.fax, .auto⟩ else none := by
  obtain ⟨hdet, hmode, hpend, hauto⟩ := Line.slipped_detector (i := i) hp
  have hstep : L.fed i = (((L.slipped i).hearing .faxAnswer).autoFaxAction, [.faxAnswer .remoteEnd]) := by
    rw [Line.fed, Line.stageFeed_voice (hmode.trans hm), hc, Line.stepPlayoutAnswer_eq, hdet]
    exact if_pos ⟨rfl, h⟩
  rw [hstep, Line.autoFaxAction_eq (L := (L.slipped i).hearing .faxAnswer) (hmode.trans hm)]
  refine ⟨rfl, ?_, ?_⟩
  · show min 60 ((L.slipped i).detector.playoutAnswer + 1) = 60
    rw [hdet, h]
    rfl
  · show (if (L.slipped i).autoFax = true ∧ (L.slipped i).pendingMode = none then some ⟨.fax, .auto⟩ else (L.slipped i).pendingMode) = _
    rw [hauto, hpend]
    simp only [and_true]

theorem Line.fed_quiet (hp : L.pendingMode = none) (h : L.mode = .voice → classify (L.playedCell i) = .faxAnswer → L.detector.playoutAnswer ≠ 59) :
    (L.fed i).2 = [] ∧ (L.fed i).1.pendingMode = none ∧
      (L.mode = .voice → classify (L.playedCell i) ≠ .faxAnswer → (L.fed i).1.detector.playoutAnswer = 0) := by
  obtain ⟨hdet, hmode, hpend, -⟩ := Line.slipped_detector (i := i) hp
  cases hm : L.mode with
  | fax =>
    rw [Line.fed, Line.stageFeed_fax (hmode.trans hm)]
    exact ⟨rfl, hpend, nofun⟩
  | voice =>
    have hstep : L.fed i = ((L.slipped i).hearing (classify (L.playedCell i)), []) := by
      rw [Line.fed, Line.stageFeed_voice (hmode.trans hm), Line.stepPlayoutAnswer_eq, hdet]
      exact if_neg fun hc => h hm hc.1 hc.2
    rw [hstep]
    exact ⟨rfl, hpend, fun _ hc => if_neg hc⟩

/-! ### FAX CALLING and FAX ANSWER (O42) -/

theorem Line.loadCell_answer (L : Line) (i : LoadInput) : (L.loadCell i).1.detector = (L.fed i).1.detector ∧
    (L.loadCell i).1.pendingMode = (L.fed i).1.pendingMode := by
  obtain ⟨_, _, _, _, _, _, _, _, h⟩ := L.loadCell_fed i
  rw [h]
  exact ⟨rfl, rfl⟩

theorem Line.loadCell_events (hp : L.pendingMode = none) : (L.loadCell i).2 = (L.rendered i).2 ++ (L.fed i).2 := by
  rw [Line.loadCell_eq, Line.stageMode_none hp]
  rfl

theorem exec_faxAnswer_remote (hl : s.resetLow = false) (h : s.willHearAnswer l = true) :
    exec (.faxAnswer l .remoteEnd) s = exec (.load l) s :=
  (State.next_high hl).trans ((congrArg Host.Outcome.next (if_pos h)).trans (State.next_high hl).symm)

theorem exec_faxAnswer_unheard (hl : s.resetLow = false) (h : s.willHearAnswer l = false) :
    exec (.faxAnswer l .remoteEnd) s = .next s :=
  (State.next_high hl).trans (congrArg Host.Outcome.next (if_neg (by rw [h]; exact Bool.false_ne_true)))

/-- Settles O42: the captured side by its step, the played side by the feed stage of the load, the classes by their definition. -/
theorem faxTonesQualify : Obligations.FaxTonesQualify := by
  refine ⟨fun s l hl hd hroom hm hs => ⟨fun hc h => ?_, fun hc h => ?_⟩, fun s l hready hn hroom hm h => ?_, classify_silence,
    fun cell => classify_loud⟩
  · exact State.detectorTurns (exec_faxCalling hl (Line.willCall_of hm hc h)) hl hd hroom (plain_cons.2 ⟨rfl, plain_nil⟩)
      (Line.takeDetector_faxCalling hm hs hc h)
  · exact State.detectorTurns (exec_faxAnswer_local hl (Line.willAnswer_of hm hc h)) hl hd hroom (plain_cons.2 ⟨rfl, plain_nil⟩)
      (Line.takeDetector_faxAnswer hm hs hc h)
  · obtain ⟨hl, hd, hp⟩ := hready
    refine ⟨_, exec_load hl hd, s.loadFrame l, ?_⟩
    have hR : ((s.line l).rendered (s.loadInput l)).2 = [] := by rw [Line.rendered_quiet hp (Line.activeContext_none hn)]
    have he := Line.loadCell_events (i := s.loadInput l) hp
    obtain ⟨hdet, hpend⟩ := (s.line l).loadCell_answer (s.loadInput l)
    have hwill : s.willHearAnswer l = (((s.loadLine l).line l).detector.playoutAnswer == 60) := by
      rw [State.willHearAnswer, h]
      rfl
    rw [hR] at he
    rw [State.line_loadLine, Line.loadCell_loaded, hdet, hpend]
    refine ⟨fun hc => ?_, fun hc => ?_⟩
    · obtain ⟨hes, hcount, hmode⟩ := Line.fed_hears hp hm h hc
      refine ⟨?_, hcount, hmode, State.Room.loadQueued hroom (by rw [he, hes]; rfl)⟩
      rw [exec_faxAnswer_remote hl, exec_load hl hd]
      rw [hwill, State.line_loadLine, hdet, hcount]
      rfl
    · obtain ⟨hes, hmode, hcount⟩ := Line.fed_quiet (i := s.loadInput l) hp fun _ hc' => absurd hc' hc
      refine ⟨exec_faxAnswer_unheard hl ?_, hcount hm hc, hmode, State.Room.loadQueued (es := []) (Nat.zero_le 1 |> hroom.mono) (by rw [he, hes]; rfl)⟩
      rw [hwill, State.line_loadLine, hdet, hcount hm hc]
      rfl

end Load
end Sys2Proof.Machine
end

section
/-! The load that applies a pending mode: the signals it ends, and the load that goes on without them (R74, R123, R136, R157, R163). -/

namespace Sys2Proof.Machine

section Mode

variable {L : Line} {i : LoadInput} {s : State} {l : Fin 4}

/-! ### The load of a line that renders nothing -/

/-- Stages 2 to 8 of the load of a line with no context, and the records of its feed. -/
def Line.quietLoad (L : Line) (i : LoadInput) : LineStep :=
  let cell := L.content i.slot i.pattern
  let f := ((L.stageContent i.slot).stageSlip false cell).stageFeed cell
  ((f.1.stageLoad cell ((L.stageContent i.slot).slipOfCell false cell)).stageWindow.withoutLoad, f.2)

theorem Line.loadCell_cleared (h : L.stageMode.1.NoContexts) :
    L.loadCell i = (L.touchMark (L.stageMode.1.quietLoad i).1, L.stageMode.2 ++ (L.stageMode.1.quietLoad i).2) := by
  have ha : (L.contented i).activeContext = none := by
    rw [Line.contented, Line.activeContext_stageContent, Line.activeContext_none h]
  have hr : L.rendered i = (L.contented i, []) := by rw [Line.rendered, Line.stageRender, ha]
  have hcell : L.playedCell i = L.stageMode.1.content i.slot i.pattern := by rw [Line.playedCell, Line.finalCell, ha]
  have hout : (L.contented i).carriesOutput = false := by rw [Line.carriesOutput, ha]; rfl
  rw [Line.loadCell_eq, Line.halved, Line.fed, Line.slipped, Line.playedSlip, hr, hcell, hout, List.append_nil]
  rfl

/-- The line with its CID buffer and its ringing replaced. -/
def Line.withCall (L : Line) (cid : CidBuffer) (ring : RingRecord) (x : Bool) : Line :=
  { L with cid := cid, ring := ring, due := { L.due with ring := x } }

section WithCall

variable (cid : CidBuffer) (ring : RingRecord) (x : Bool)

theorem Line.stageContent_withCall (slot : StoreCell) : (L.withCall cid ring x).stageContent slot = (L.stageContent slot).withCall cid ring x := by
  cases h : slot.filled with
  | true => rw [Line.stageContent_filled h, Line.stageContent_filled h]; rfl
  | false => rw [Line.stageContent_empty h, Line.stageContent_empty h, Line.emptyLoaded_eq, Line.emptyLoaded_eq]; rfl

theorem Line.stageSlip_withCall (output : Bool) (cell : List Sample) :
    (L.withCall cid ring x).stageSlip output cell = (L.stageSlip output cell).withCall cid ring x := by
  unfold Line.stageSlip
  by_cases h : L.slips output cell = true
  · rw [if_pos h, if_pos (show (L.withCall cid ring x).slips output cell = true from h)]
    rfl
  · rw [if_neg h, if_neg (show ¬(L.withCall cid ring x).slips output cell = true from h)]
    rfl

theorem Line.autoFaxAction_withCall : (L.withCall cid ring x).autoFaxAction = L.autoFaxAction.withCall cid ring x := by
  unfold Line.autoFaxAction
  by_cases h : L.autoFax ∧ L.mode = .voice ∧ L.pendingMode = none
  · rw [if_pos h, if_pos (show (L.withCall cid ring x).autoFax ∧ (L.withCall cid ring x).mode = .voice ∧
      (L.withCall cid ring x).pendingMode = none from h)]
    rfl
  · rw [if_neg h, if_neg (show ¬((L.withCall cid ring x).autoFax ∧ (L.withCall cid ring x).mode = .voice ∧
      (L.withCall cid ring x).pendingMode = none) from h)]

theorem Line.stageFeed_withCall (cell : List Sample) :
    (L.withCall cid ring x).stageFeed cell = ((L.stageFeed cell).1.withCall cid ring x, (L.stageFeed cell).2) := by
  cases hm : L.mode with
  | fax => rw [Line.stageFeed_fax hm, Line.stageFeed_fax (L := L.withCall cid ring x) hm]
  | voice =>
    rw [Line.stageFeed_voice hm, Line.stageFeed_voice (L := L.withCall cid ring x) hm, Line.stepPlayoutAnswer_eq, Line.stepPlayoutAnswer_eq]
    by_cases h : classify cell = .faxAnswer ∧ L.detector.playoutAnswer = 59
    · rw [if_pos h, if_pos (show classify cell = .faxAnswer ∧ (L.withCall cid ring x).detector.playoutAnswer = 59 from h)]
      exact congrArg (·, _) (Line.autoFaxAction_withCall (L := L.hearing (classify cell)) cid ring x)
    · rw [if_neg h, if_neg (show ¬(classify cell = .faxAnswer ∧ (L.withCall cid ring x).detector.playoutAnswer = 59) from h)]
      rfl

theorem Line.setHalf_withCall (h : HalfId) (y : PlayHalf) : (L.withCall cid ring x).setHalf h y = (L.setHalf h y).withCall cid ring x := by
  cases h <;> rfl

theorem Line.stageLoad_withCall (cell : List Sample) (slip : Int) :
    (L.withCall cid ring x).stageLoad cell slip = (L.stageLoad cell slip).withCall cid ring x := by
  unfold Line.stageLoad
  rw [Line.setHalf_withCall]
  rfl

theorem Line.stageWindow_withCall : (L.withCall cid ring x).stageWindow = L.stageWindow.withCall cid ring x := by
  unfold Line.stageWindow
  by_cases h : L.closesWindow = true
  · rw [if_pos h, if_pos (show (L.withCall cid ring x).closesWindow = true from h)]
    rfl
  · rw [if_neg h, if_neg (show ¬(L.withCall cid ring x).closesWindow = true from h)]
    rfl

/-- A load that renders nothing neither reads nor changes the CID buffer and the ringing. -/
theorem Line.quietLoad_withCall :
    (L.withCall cid ring x).quietLoad i = ((L.quietLoad i).1.withCall cid ring x, (L.quietLoad i).2) := by
  unfold Line.quietLoad
  dsimp only
  rw [Line.stageContent_withCall, show (L.withCall cid ring x).content i.slot i.pattern = L.content i.slot i.pattern from rfl,
    Line.stageSlip_withCall, Line.stageFeed_withCall,
    show ((L.stageContent i.slot).withCall cid ring x).slipOfCell false (L.content i.slot i.pattern) =
      (L.stageContent i.slot).slipOfCell false (L.content i.slot i.pattern) from rfl]
  dsimp only
  rw [Line.stageLoad_withCall, Line.stageWindow_withCall]
  rfl

end WithCall

/-- The line with a playout fax-answer count. -/
def Line.heard (L : Line) (n : Nat) : Line := { L with detector := { L.detector with playoutAnswer := n } }

/-- A feed from a count of 0 completes no run (R165). -/
theorem Line.stageFeed_counts (L : Line) (cell : List Sample) (h0 : L.detector.playoutAnswer = 0) :
    ∃ n, L.stageFeed cell = (L.heard n, []) ∧ n ≤ if L.mode = .voice then 1 else 0 := by
  cases hm : L.mode with
  | fax =>
    refine ⟨0, ?_, Nat.zero_le _⟩
    rw [Line.stageFeed_fax hm, Line.heard, ← h0]
  | voice =>
    refine ⟨if classify cell = .faxAnswer then min 60 (L.detector.playoutAnswer + 1) else 0, ?_, ?_⟩
    · rw [Line.stageFeed_voice hm, Line.stepPlayoutAnswer_eq]
      exact if_neg fun h => absurd (h0.symm.trans h.2) (by decide)
    · rw [h0, if_pos rfl]
      split <;> decide

/-- What the load of a line without context leaves when no fax-answer run can complete. -/
theorem Line.quietLoad_fields (hp : L.pendingMode = none) (h0 : L.detector.playoutAnswer = 0) : ∃ N, N = (L.quietLoad i).1 ∧
    (L.quietLoad i).2 = [] ∧ N.mode = L.mode ∧ N.pendingMode = none ∧ N.background = L.background ∧ N.foreground = L.foreground ∧
    N.mark = L.mark ∧ N.detector = { L.detector with playoutAnswer := N.detector.playoutAnswer } ∧
    N.detector.playoutAnswer ≤ if L.mode = .voice then 1 else 0 := by
  refine ⟨_, rfl, ?_⟩
  unfold Line.quietLoad
  dsimp only
  generalize L.content i.slot i.pattern = cell
  generalize Line.slipOfCell _ false cell = slip
  obtain ⟨_, _, _, hs⟩ := (L.stageContent i.slot).stageSlip_frame false cell
  obtain ⟨_, _, _, _, _, hc⟩ := L.stageContent_frame i.slot
  have hS : ∃ S, S = (L.stageContent i.slot).stageSlip false cell ∧ S.mode = L.mode ∧ S.pendingMode = L.pendingMode ∧
      S.background = L.background ∧ S.foreground = L.foreground ∧ S.mark = L.mark ∧ S.detector = L.detector :=
    ⟨_, rfl, by rw [hs, hc]; exact ⟨rfl, rfl, rfl, rfl, rfl, rfl⟩⟩
  obtain ⟨S, hS, hm, hpend, hb, hf, hmark, hdet⟩ := hS
  rw [← hS, ← hm, ← hp, ← hpend, ← hb, ← hf, ← hmark, ← hdet]
  rw [← hdet] at h0
  obtain ⟨n, hfeed, hn⟩ := S.stageFeed_counts cell h0
  rw [hfeed]
  obtain ⟨_, _, hw⟩ := (Line.stageLoad (S.heard n) cell slip).stageWindow_frame
  obtain ⟨_, _, hh⟩ := (S.heard n).setHalf_frame (S.heard n).playing.other ⟨cell, (S.heard n).horizon, slip⟩
  rw [hw, Line.stageLoad, hh]
  exact ⟨rfl, rfl, rfl, rfl, rfl, rfl, rfl, hn⟩

/-! ### What a mode change ends -/

/-- A mode change ends the foreground with the records `es`, and leaves this CID buffer and this ringing. -/
def Line.Clears (L : Line) (cid : CidBuffer) (ring : RingRecord) (x : Bool) (es : List Event) : Prop :=
  ∃ background, (background = none ↔ L.background = none) ∧ L.modeForeground =
    ({ L with foreground := none, background := background, cid := cid, ring := ring, due := { L.due with ring := x } }, es)

theorem Line.clears_none (hr : L.ring.holdsCid = false) (hf : L.foreground = none) : L.Clears L.cid L.ring L.due.ring [] := by
  refine ⟨L.background, Iff.rfl, ?_⟩
  have h : L.modeForeground = (L, []) := by rw [Line.modeForeground, if_neg (by rw [hr]; exact Bool.false_ne_true), hf]
  exact h.trans (congrArg (·, []) (by rw [← hf]))

theorem Line.clears_program {st : CtxState} {m : OutputMode} {r : Nat} {run : ProgramRun} (hr : L.ring.holdsCid = false)
    (hf : L.foreground = some ⟨st, m, .program r run⟩) : L.Clears L.cid L.ring L.due.ring [.signalCancelled .foreground .fax] := by
  refine ⟨L.background.map Context.resume, Option.map_eq_none_iff, ?_⟩
  rw [Line.modeForeground, if_neg (by rw [hr]; exact Bool.false_ne_true), hf]
  rfl

theorem Line.clears_offHookCid {st : CtxState} {m : OutputMode} {a : AlertRun} (hr : L.ring.holdsCid = false)
    (hf : L.foreground = some ⟨st, m, .offHookCid a⟩) : L.Clears ⟨L.cid.message, false⟩ L.ring L.due.ring [.cidAborted .fax] := by
  refine ⟨L.background.map Context.resume, Option.map_eq_none_iff, ?_⟩
  rw [Line.modeForeground, if_neg (by rw [hr]; exact Bool.false_ne_true), hf]
  rfl

/-- An on-hook CID that ends, scheduled or sending. -/
theorem Line.endOnHookCid_of (hf : L.foreground = none ∨ ∃ st m f, L.foreground = some ⟨st, m, .onHookCid f⟩) : ∃ background,
    (background = none ↔ L.background = none) ∧ L.endOnHookCid =
      { L with foreground := none, background := background, cid := ⟨L.cid.message, false⟩, ring := { L.ring with cid := none } } := by
  obtain hf | ⟨st, m, f, hf⟩ := hf
  · exact ⟨L.background, Iff.rfl, by rw [Line.endOnHookCid_scheduled hf, ← hf]⟩
  · exact ⟨_, Option.map_eq_none_iff, Line.endOnHookCid_sending hf⟩

theorem Line.afterCid_on {begun remaining : Nat} (h : L.ring.state = .on begun remaining) : L.afterCid = (L, []) := by
  simp only [Line.afterCid, h]

theorem Line.afterCid_turns {begun remaining : Nat} (h : L.ring.state = .cidSend begun remaining ∨ ∃ d, L.ring.state = .cidDelay begun remaining d) :
    L.afterCid = if L.ring.bursts = 1 then (L.ringIdle, [.ringDone .count]) else (L.setRing (.off begun remaining), []) := by
  obtain h | ⟨d, h⟩ := h <;> simp only [Line.afterCid, h]

theorem Line.clears_on {remaining : Nat} (hs : L.ring.state = .on 1 remaining) (hc : L.ring.cid ≠ none) (hf : L.foreground = none) :
    L.Clears ⟨L.cid.message, false⟩ { L.ring with cid := none } L.due.ring [.cidAborted .fax] := by
  obtain ⟨background, hb, he⟩ := L.endOnHookCid_of (.inl hf)
  have hh : L.ring.holdsCid = true := by
    rw [RingRecord.holdsCid, hs]
    exact Option.isSome_iff_ne_none.2 hc
  refine ⟨background, hb, (if_pos hh).trans ?_⟩
  have hafter := Line.afterCid_on (L := L.endOnHookCid) (begun := 1) (remaining := remaining) (by rw [he]; exact hs)
  rw [hafter, he]

theorem Line.clears_turns {begun remaining : Nat} (hs : L.ring.state = .cidSend begun remaining ∨ ∃ d, L.ring.state = .cidDelay begun remaining d)
    (hf : L.foreground = none ∨ ∃ st m f, L.foreground = some ⟨st, m, .onHookCid f⟩) :
    (L.ring.bursts ≠ 1 → L.Clears ⟨L.cid.message, false⟩ { L.ring with state := .off begun remaining, cid := none } L.due.ring
      [.cidAborted .fax]) ∧
    (L.ring.bursts = 1 → L.Clears ⟨L.cid.message, false⟩ { L.ring with state := .idle, cid := none } false
      [.cidAborted .fax, .ringDone .count]) := by
  obtain ⟨background, hb, he⟩ := L.endOnHookCid_of hf
  have hh : L.ring.holdsCid = true := by
    obtain hs | ⟨d, hs⟩ := hs <;> rw [RingRecord.holdsCid, hs]
  have hafter := Line.afterCid_turns (L := L.endOnHookCid) (begun := begun) (remaining := remaining) (by rw [he]; exact hs)
  rw [he] at hafter
  refine ⟨fun h1 => ⟨background, hb, (if_pos hh).trans ?_⟩, fun h1 => ⟨background, hb, (if_pos hh).trans ?_⟩⟩
  · rw [he, hafter, if_neg h1]
    rfl
  · rw [he, hafter, if_pos h1]
    rfl

theorem Line.CidLaw.none_of_on (h : L.CidLaw) {remaining : Nat} (hs : L.ring.state = .on 1 remaining) (hc : L.ring.cid ≠ none) :
    L.foreground = none := by
  have hcarries := (Line.cidLaw_iff.mp h).2
  simp only [RingRecord.Carries, hs] at hcarries
  exact hcarries.2.2 trivial hc

theorem Line.CidLaw.onHook_of_turns (h : L.CidLaw) {begun remaining : Nat}
    (hs : L.ring.state = .cidSend begun remaining ∨ ∃ d, L.ring.state = .cidDelay begun remaining d) :
    L.foreground = none ∨ ∃ st m f, L.foreground = some ⟨st, m, .onHookCid f⟩ := by
  have hcarries := (Line.cidLaw_iff.mp h).2
  obtain hs | ⟨d, hs⟩ := hs
  · simp only [RingRecord.Carries, hs] at hcarries
    obtain ⟨-, ⟨st, m, k⟩, hf, hk⟩ := hcarries
    cases k with
    | onHookCid f => exact .inr ⟨_, _, _, hf⟩
    | program r run => exact nomatch hk
    | offHookCid a => exact nomatch hk
  · simp only [RingRecord.Carries, hs] at hcarries
    exact .inl hcarries.2

theorem Line.CidLaw.clears_noCid (h : L.CidLaw) (hr : L.ring.holdsCid = false) :
    ∃ cid es, L.Clears cid L.ring L.due.ring es ∧ es.length ≤ 2 := by
  cases hf : L.foreground with
  | none => exact ⟨_, _, Line.clears_none hr hf, by decide⟩
  | some c =>
    have hno := h.noOnHook hr c hf
    obtain ⟨st, m, k⟩ := c
    cases k with
    | program r run => exact ⟨_, _, Line.clears_program hr hf, by decide⟩
    | offHookCid a => exact ⟨_, _, Line.clears_offHookCid hr hf, by decide⟩
    | onHookCid f => exact nomatch hno

/-- Every mode change ends the foreground one of these ways. -/
theorem Line.CidLaw.clears (h : L.CidLaw) : ∃ cid ring x es, L.Clears cid ring x es ∧ es.length ≤ 2 := by
  cases hr : L.ring.holdsCid with
  | false =>
    obtain ⟨cid, es, hc, hn⟩ := h.clears_noCid hr
    exact ⟨_, _, _, _, hc, hn⟩
  | true =>
    have turns {begun remaining : Nat}
        (hs : L.ring.state = .cidSend begun remaining ∨ ∃ d, L.ring.state = .cidDelay begun remaining d) :
        ∃ cid ring x es, L.Clears cid ring x es ∧ es.length ≤ 2 := by
      obtain ⟨hoff, hidle⟩ := Line.clears_turns hs (h.onHook_of_turns hs)
      by_cases h1 : L.ring.bursts = 1
      · exact ⟨_, _, _, _, hidle h1, Nat.le_refl 2⟩
      · exact ⟨_, _, _, _, hoff h1, Nat.le_succ 1⟩
    cases hs : L.ring.state with
    | idle => simp [RingRecord.holdsCid, hs] at hr
    | off begun remaining => simp [RingRecord.holdsCid, hs] at hr
    | on begun remaining =>
      simp only [RingRecord.holdsCid, hs, Bool.and_eq_true, beq_iff_eq] at hr
      obtain ⟨rfl, hc⟩ := hr
      have hc := Option.isSome_iff_ne_none.1 hc
      exact ⟨_, _, _, _, Line.clears_on hs hc (h.none_of_on hs hc), by decide⟩
    | cidDelay begun remaining d => exact turns (.inr ⟨d, hs⟩)
    | cidSend begun remaining => exact turns (.inl hs)

/-! ### The load that applies the mode -/

/-- The line as a mode change leaves it, but for its CID buffer and its ringing. -/
def Line.cleared (L : Line) (p : PendingMode) : Line :=
  { L with mode := p.mode, pendingMode := none, background := none, foreground := none, detector := ⟨⟨.seeking, none, 0⟩, 0, 0, 0⟩ }

theorem Line.modeBackground_eq : L.modeBackground =
    ({ L with background := none }, if L.background = none then [] else [.signalCancelled .background .fax]) := by
  unfold Line.modeBackground
  cases hb : L.background with
  | none => exact congrArg (·, []) (Line.with_background_none hb).symm
  | some c => rfl

theorem Line.length_resetDetector : L.resetDetector.2.length ≤ 1 := by
  unfold Line.resetDetector
  split
  · exact Nat.le_refl 1
  · exact Nat.zero_le 1

/-- The records of a mode change after those of the foreground (R123, R163, R168). -/
def Line.modeRecords (L : Line) (p : PendingMode) : List Event :=
  (if L.background = none then [] else [.signalCancelled .background .fax]) ++ L.resetDetector.2 ++ [.modeChanged p.mode p.cause]

theorem Line.Clears.changeMode {cid : CidBuffer} {ring : RingRecord} {x : Bool} {es : List Event} (h : L.Clears cid ring x es)
    (p : PendingMode) : L.changeMode p = ((L.cleared p).withCall cid ring x, es ++ L.modeRecords p) := by
  obtain ⟨background, hb, h⟩ := h
  rw [Line.changeMode, h, Line.modeBackground_eq]
  refine Prod.ext rfl ?_
  show es ++ (if background = none then [] else _) ++ L.resetDetector.2 ++ _ = es ++ _
  rw [Line.modeRecords, List.append_assoc, List.append_assoc, List.append_assoc, if_congr hb rfl rfl]

/-- The line and the records of the load that applies a pending mode: the load of the line so changed, without the signals it had. -/
theorem Line.Clears.loadCell {cid : CidBuffer} {ring : RingRecord} {x : Bool} {es : List Event} (h : L.Clears cid ring x es)
    {p : PendingMode} (hp : L.pendingMode = some p) : L.loadCell i =
      (L.touchMark (((L.cleared p).quietLoad i).1.withCall cid ring x), es ++ L.modeRecords p) := by
  have hm : L.stageMode = ((L.cleared p).withCall cid ring x, es ++ L.modeRecords p) := by
    rw [Line.stageMode, hp]
    exact h.changeMode p
  obtain ⟨_, -, hes, -⟩ := Line.quietLoad_fields (L := L.cleared p) (i := i) rfl rfl
  rw [Line.loadCell_cleared (by rw [hm]; exact ⟨rfl, rfl⟩), hm, Line.quietLoad_withCall, hes, List.append_nil]

theorem Line.cleared_loadCell (p : PendingMode) :
    (L.cleared p).loadCell i = ((L.cleared p).touchMark ((L.cleared p).quietLoad i).1, ((L.cleared p).quietLoad i).2) := by
  have hm : (L.cleared p).stageMode = (L.cleared p, []) := Line.stageMode_none rfl
  rw [Line.loadCell_cleared (by rw [hm]; exact ⟨rfl, rfl⟩), hm]
  rfl

theorem Line.touchMark_cleared {N : Line} (hm : N.mark = L.mark) (hb : N.background = none) (hf : N.foreground = none) :
    L.touchMark N = { N with mark := L.mark || L.signalling } := by
  have h1 : N.foregroundMarks = false := by rw [Line.foregroundMarks, hf]
  have h2 : N.backgroundMarks = false := by rw [Line.backgroundMarks, hb]
  rw [Line.touchMark, h1, h2, hm, Line.signalling]
  cases L.mark <;> cases L.foregroundMarks <;> cases L.backgroundMarks <;> rfl

theorem State.loadInput_setLine (hr : L.playRing = (s.line l).playRing) (hh : L.hs = (s.line l).hs) :
    (s.setLine l L).loadInput l = s.loadInput l := by
  unfold State.loadInput Line.slotCell Line.playBase
  rw [State.line_setLine_same, hr, hh]
  rfl

theorem Line.length_modeRecords (p : PendingMode) : (L.modeRecords p).length ≤ 3 := by
  have h1 : (if L.background = none then [] else [Event.signalCancelled .background .fax]).length ≤ 1 := by
    split
    · exact Nat.zero_le 1
    · exact Nat.le_refl 1
  have h2 := L.length_resetDetector
  rw [Line.modeRecords, List.length_append, List.length_append, List.length_singleton]
  omega

theorem State.loadLine_store (s : State) (l : Fin 4) : (s.loadLine l).store = s.store.write (s.line l).slotCell .reset := by
  rw [State.loadLine, State.commitLine, State.queue_store]
  rfl

/-- Settles O34: the signals the mode change ends, and after it the load of the line so changed. -/
theorem loadAppliesPendingMode : Obligations.LoadAppliesPendingMode := by
  intro s l p hl hd hp hlaw hroom
  have hu : (s.setLine l ((s.line l).cleared p)).loadInput l = s.loadInput l := State.loadInput_setLine rfl rfl
  obtain ⟨N, hN, hes, hmode, hpend, hb, hf, hmark, hdet, hcount⟩ :=
    Line.quietLoad_fields (L := (s.line l).cleared p) (i := s.loadInput l) rfl rfl
  have hline {cid : CidBuffer} {ring : RingRecord} {x : Bool} {es : List Event} (h : (s.line l).Clears cid ring x es) :
      (s.loadLine l).line l = { N with cid := cid, ring := ring, mark := (s.line l).mark || (s.line l).signalling, due := { N.due with ring := x } } := by
    rw [State.line_loadLine, h.loadCell hp, ← hN]
    exact Line.touchMark_cleared (N := N.withCall cid ring x) hmark hb hf
  have huline : ((s.setLine l ((s.line l).cleared p)).loadLine l).line l = ((s.line l).cleared p).touchMark N := by
    rw [State.line_loadLine, State.line_setLine_same, hu, Line.cleared_loadCell, ← hN]
  obtain ⟨cid, ring, x, es, hclears, -⟩ := hlaw.clears
  have ht := hline hclears
  refine ⟨_, _, exec_load hl hd, s.loadFrame l, exec_load (s := s.setLine l ((s.line l).cleared p)) hl ?_, ?_, ?_, ?_, ?_, ?_, ?_, ?_, ?_⟩
  · rw [State.line_setLine_same]
    exact hd
  · rw [huline, ht]
    rfl
  · rw [State.loadLine_store, State.loadLine_store, State.line_setLine_same]
    rfl
  · rw [ht]; exact hmode
  · rw [ht]; exact hpend
  · rw [ht]; exact ⟨hb, hf⟩
  · rw [ht]; exact hdet
  · rw [ht]; exact hcount
  · intro after hafter
    have hafter : after = (s.line l).modeRecords p := hafter
    have ends {cid : CidBuffer} {ring : RingRecord} {x : Bool} {es : List Event} (h : (s.line l).Clears cid ring x es) (hn : es.length ≤ 2) :
        ((s.loadLine l).line l).ring = ring ∧ ((s.loadLine l).line l).due.ring = x ∧ ((s.loadLine l).line l).cid = cid ∧
          s.Queued (s.loadLine l) l s.g (es ++ after) s.cLink.response := by
      rw [hline h, hafter]
      have hlen := (s.line l).length_modeRecords p
      refine ⟨rfl, rfl, rfl, State.Room.loadQueued (hroom.mono ?_) (by rw [h.loadCell hp])⟩
      rw [List.length_append]
      omega
    refine ⟨fun hr => ?_, fun remaining hs hc => ?_, fun begun remaining hs => ?_⟩
    · obtain ⟨_, _, hc, hn⟩ := hlaw.clears_noCid hr
      obtain ⟨hring, hx, -, -⟩ := ends hc hn
      refine ⟨hring, hx, fun hf => ?_, fun st m r run hf => ?_, fun st m a hf => ?_⟩
      · obtain ⟨-, -, hcid, hq⟩ := ends (Line.clears_none hr hf) (by decide)
        exact ⟨hcid, hq⟩
      · obtain ⟨-, -, hcid, hq⟩ := ends (Line.clears_program hr hf) (by decide)
        exact ⟨hcid, hq⟩
      · obtain ⟨-, -, hcid, hq⟩ := ends (Line.clears_offHookCid hr hf) (by decide)
        exact ⟨hcid, hq⟩
    · obtain ⟨hring, hx, hcid, hq⟩ := ends (Line.clears_on hs hc (hlaw.none_of_on hs hc)) (by decide)
      exact ⟨hring, hx, hcid, hq⟩
    · obtain ⟨hoff, hidle⟩ := Line.clears_turns hs (hlaw.onHook_of_turns hs)
      refine ⟨?_, fun h1 => ?_, fun h1 => ?_⟩
      · by_cases h1 : (s.line l).ring.bursts = 1
        · exact (ends (hidle h1) (Nat.le_refl 2)).2.2.1
        · exact (ends (hoff h1) (Nat.le_succ 1)).2.2.1
      · obtain ⟨hring, hx, -, hq⟩ := ends (hoff h1) (Nat.le_succ 1)
        exact ⟨hring, hx, hq⟩
      · obtain ⟨hring, hx, -, hq⟩ := ends (hidle h1) (Nat.le_refl 2)
        exact ⟨hring, hx, hq⟩

end Mode
end Sys2Proof.Machine
end

section
/-! The load of a line with an ACTIVE context: what a program and a caller identification render, how they go on, and how they end (R76, R78,
R116, R117, R129, R132, R134, R135, R138 to R140). -/

namespace Sys2Proof.Machine

section Render

variable {L : Line} {i : LoadInput} {s : State} {l : Fin 4} {v : Level} {c : Context}

/-! ### The load of an ACTIVE context -/

/-- The line as rendering finds it: its content loaded, and a MEDIA slot that EXCLUSIVE output replaces counted as suppressed (R76). -/
def Line.prepared (L : Line) (i : LoadInput) (c : Context) : Line :=
  let C := L.stageContent i.slot
  { C with stats := if c.output = .exclusive ∧ i.slot.holdsMedia then { C.stats with suppressed := countUp 65535 C.stats.suppressed } else C.stats }

theorem Line.prepared_frame (L : Line) (i : LoadInput) (c : Context) : ∃ run stats playout anchors repeatBuffer,
    L.prepared i c = { L with run := run, stats := stats, playout := playout, anchors := anchors, repeatBuffer := repeatBuffer } := by
  obtain ⟨_, _, _, _, _, h⟩ := L.stageContent_frame i.slot
  rw [Line.prepared, h]
  exact ⟨_, _, _, _, _, rfl⟩

theorem Line.stageContent_suppressed (slot : StoreCell) : (L.stageContent slot).stats.suppressed = L.stats.suppressed := by
  cases h : slot.filled with
  | true => rw [Line.stageContent_filled h]; rfl
  | false =>
    rw [Line.stageContent_empty h, Line.emptyLoaded_eq]
    dsimp only
    split <;> rfl

theorem Line.prepared_suppressed (L : Line) (i : LoadInput) (c : Context) : (L.prepared i c).stats.suppressed =
    if c.output = .exclusive ∧ i.slot.holdsMedia = true then min 65535 (L.stats.suppressed + 1) else L.stats.suppressed := by
  rw [← countUp_eq_min, Line.prepared]
  dsimp only
  split
  · exact congrArg (countUp 65535) (Line.stageContent_suppressed i.slot)
  · exact Line.stageContent_suppressed i.slot

theorem Line.stageRender_active {C : Line} (ha : C.activeContext = some (v, c)) : C.stageRender i =
    Line.renderStep i.tones i.programs { C with stats := if c.output = .exclusive ∧ i.slot.holdsMedia then
      { C.stats with suppressed := countUp 65535 C.stats.suppressed } else C.stats } v c := by
  rw [Line.stageRender, ha]
  dsimp only
  split <;> rfl

theorem Line.rendered_active (hp : L.pendingMode = none) (ha : L.activeContext = some (v, c)) :
    L.rendered i = (L.prepared i c).renderStep i.tones i.programs v c := by
  rw [Line.rendered, Line.contented_eq hp, Line.stageRender_active ((Line.activeContext_stageContent i.slot).trans ha)]
  rfl

theorem Line.renderCell_stageContent (slot : StoreCell) (tones : List ToneEntry) (programs : List ProgramRecord) (c : Context) :
    (L.stageContent slot).renderCell tones programs c = L.renderCell tones programs c := by
  obtain ⟨_, _, _, _, _, h⟩ := L.stageContent_frame slot
  rw [h]
  rfl

theorem Line.playedCell_active (hp : L.pendingMode = none) (ha : L.activeContext = some (v, c)) :
    L.playedCell i = joinCell c.output (L.content i.slot i.pattern) (L.renderCell i.tones i.programs c) := by
  rw [Line.playedCell, Line.contented_eq hp, Line.finalCell, Line.activeContext_stageContent, ha, Line.stageMode_none hp]
  exact congrArg (joinCell _ _) (Line.renderCell_stageContent _ _ _ _)

theorem Line.playedSlip_active (hp : L.pendingMode = none) (ha : L.activeContext = some (v, c)) : L.playedSlip i = 0 := by
  have hout : (L.contented i).carriesOutput = true := by rw [Line.carriesOutput_eq hp, ha]; rfl
  rw [Line.playedSlip, hout, Line.slipOfCell, if_neg (by rw [Line.slips_output]; exact Bool.false_ne_true)]

/-- The load of a line with an ACTIVE context that completes no fax-answer run. -/
theorem Line.loadCell_active (hp : L.pendingMode = none) (h59 : L.detector.playoutAnswer ≠ 59) (ha : L.activeContext = some (v, c)) :
    ∃ N R, N = L.loadCell i ∧ R = (L.prepared i c).renderStep i.tones i.programs v c ∧ N.2 = R.2 ∧
      N.1.half L.playing.other = ⟨joinCell c.output (L.content i.slot i.pattern) (L.renderCell i.tones i.programs c), L.horizon, 0⟩ ∧
      N.1.foreground = R.1.foreground ∧ N.1.background = R.1.background ∧ N.1.cid = R.1.cid ∧ N.1.ring = R.1.ring ∧
      N.1.stats.suppressed = (L.prepared i c).stats.suppressed := by
  refine ⟨_, _, rfl, rfl, ?_⟩
  obtain ⟨hes, -⟩ := Line.fed_quiet (i := i) hp fun _ _ => h59
  have hR := Line.rendered_active (i := i) hp ha
  obtain ⟨_, _, _, _, _, _, _, _, _, _, _, _, hN⟩ := L.loadCell_rendered i
  obtain ⟨_, _, _, _, _, hs⟩ := (L.prepared i c).renderStep_signalsOnly i.tones i.programs v c
  refine ⟨?_, ?_, ?_, ?_, ?_, ?_, ?_⟩
  · rw [Line.loadCell_events hp, hR, hes, List.append_nil]
  · rw [Line.loadCell_loaded, Line.playedCell_active hp ha, Line.playedSlip_active hp ha]
  · rw [hN, hR]
  · rw [hN, hR]
  · rw [hN, hR]
  · rw [hN, hR]
  · rw [(L.loadCell_concealed i).2, hR, hs]

/-! ### Programs (R116, R117) -/

/-- The cells that the segment of a program has left as its cell begins (R116). -/
def ProgramRun.left (p : ProgramRecord) (r : ProgramRun) : Nat := if r.cellsLeft = 0 then (segmentAt p r).duration else r.cellsLeft

/-- The tone of a program as its cell begins: a segment that begins copies its entry (R110, R116). -/
def ProgramRun.toneBegun (p : ProgramRecord) (tones : List ToneEntry) (r : ProgramRun) : Tone :=
  if r.cellsLeft = 0 then ((segmentAt p r).tone.map fun e => Tone.start (toneAt tones e)).getD r.tone else r.tone

variable {p : ProgramRecord} {tones : List ToneEntry} {r : ProgramRun}

theorem ProgramRun.begun_eq : r.begun p tones = ⟨r.segment, r.left p, r.repeats, r.toneBegun p tones⟩ := by
  unfold ProgramRun.begun ProgramRun.left ProgramRun.toneBegun
  split
  · dsimp only
    cases (segmentAt p r).tone <;> rfl
  · rfl

theorem ProgramRun.segmentAt_begun : segmentAt p (r.begun p tones) = segmentAt p r := by
  rw [ProgramRun.begun_eq]
  rfl

theorem ProgramRun.render_eq : r.render p tones =
    if (segmentAt p r).tone = none then silence else (r.toneBegun p tones).samples 40 := by
  rw [ProgramRun.render, ProgramRun.cell, ProgramRun.segmentAt_begun, ProgramRun.begun_eq]
  cases (segmentAt p r).tone <;> rfl

/-- The run with its cell played, before it is counted. -/
def ProgramRun.afterCell (p : ProgramRecord) (tones : List ToneEntry) (r : ProgramRun) : ProgramRun :=
  ⟨r.segment, r.left p, r.repeats, if (segmentAt p r).tone = none then r.toneBegun p tones else (r.toneBegun p tones).after 40⟩

theorem ProgramRun.next_eq : r.next p tones = (r.afterCell p tones).counted p := by
  rw [ProgramRun.next, ProgramRun.played, ProgramRun.segmentAt_begun, ProgramRun.begun_eq, ProgramRun.afterCell]
  cases (segmentAt p r).tone <;> rfl

/-- A program goes on to its next cell, segment or pass (R116). -/
theorem ProgramRun.counted_some {next : ProgramRun} (ht : next.tone = r.tone)
    (h : (2 ≤ r.cellsLeft ∧ next.segment = r.segment ∧ next.cellsLeft = r.cellsLeft - 1 ∧ next.repeats = r.repeats) ∨
      (r.cellsLeft ≤ 1 ∧ r.segment + 1 < p.segments.length ∧ next.segment = r.segment + 1 ∧ next.cellsLeft = 0 ∧ next.repeats = r.repeats) ∨
      (r.cellsLeft ≤ 1 ∧ p.segments.length ≤ r.segment + 1 ∧ r.repeats = none ∧ next.segment = 0 ∧ next.cellsLeft = 0 ∧
        next.repeats = none) ∨
      ∃ n, r.cellsLeft ≤ 1 ∧ p.segments.length ≤ r.segment + 1 ∧ r.repeats = some (n + 2) ∧ next.segment = 0 ∧ next.cellsLeft = 0 ∧
        next.repeats = some (n + 1)) : r.counted p = some next := by
  obtain ⟨segment, cellsLeft, repeats, tone⟩ := next
  dsimp only at ht h
  unfold ProgramRun.counted
  obtain ⟨h2, rfl, rfl, rfl⟩ | ⟨h1, hs, rfl, rfl, rfl⟩ | ⟨h1, hs, hr, rfl, rfl, rfl⟩ | ⟨n, h1, hs, hr, rfl, rfl, rfl⟩ := h
  · rw [if_pos (by omega), ht]
  · rw [if_neg (by omega), if_pos hs, ht]
  · rw [if_neg (by omega), if_neg (by omega), hr, ht]
  · rw [if_neg (by omega), if_neg (by omega), hr, ht]
    exact if_pos (by omega)

/-- A program is complete (R116). -/
theorem ProgramRun.counted_none {n : Nat} (h1 : r.cellsLeft ≤ 1) (hs : p.segments.length ≤ r.segment + 1) (hr : r.repeats = some n)
    (hn : n ≤ 1) : r.counted p = none := by
  unfold ProgramRun.counted
  rw [if_neg (by omega), if_neg (by omega), hr]
  exact if_neg (by omega)

theorem Line.renderStep_goes {st : CtxState} {m : OutputMode} {k : Nat} {r' : ProgramRun} {programs : List ProgramRecord}
    (h : r.next (programAt programs k) tones = some r') :
    L.renderStep tones programs v ⟨st, m, .program k r⟩ = (L.setContext v ⟨st, m, .program k r'⟩, []) := by
  simp only [Line.renderStep, h]

theorem Line.renderStep_completes {st : CtxState} {m : OutputMode} {k : Nat} {programs : List ProgramRecord}
    (h : r.next (programAt programs k) tones = none) :
    L.renderStep tones programs v ⟨st, m, .program k r⟩ = (L.dropContext v, [.signalDone v]) := by
  simp only [Line.renderStep, h]

theorem Line.activeContext_foreground {m : OutputMode} {k : CtxKind} (h : L.foreground = some ⟨.active, m, k⟩) :
    L.activeContext = some (.foreground, ⟨.active, m, k⟩) := by
  simp only [Line.activeContext, h, if_true]

theorem Line.activeContext_background {m : OutputMode} {k : CtxKind} (hf : L.foreground = none) (h : L.background = some ⟨.active, m, k⟩) :
    L.activeContext = some (.background, ⟨.active, m, k⟩) := by
  simp only [Line.activeContext, hf, h, Line.activeContext.backgroundOf, if_true]

theorem saturate_eq (x : Int) : saturate x = BitVec.ofInt 16 (max (-32768) (min 32767 x)) := by
  unfold saturate
  congr 1
  split
  · omega
  · split <;> omega

theorem addCells_eq (a b : List Sample) :
    addCells a b = List.zipWith (fun a b : Sample => BitVec.ofInt 16 (max (-32768) (min 32767 (a.toInt + b.toInt)))) a b := by
  simp only [addCells, saturate_eq]

theorem exec_signalDone (hl : s.resetLow = false) (h : s.renderEvents l = [.signalDone v]) :
    exec (.signalDone l) s = exec (.load l) s := by
  have hc : s.renderEvents l = [.signalDone .background] ∨ s.renderEvents l = [.signalDone .foreground] := by
    cases v
    · exact .inl h
    · exact .inr h
  exact (State.next_high hl).trans ((congrArg Host.Outcome.next (if_pos hc)).trans (State.next_high hl).symm)

theorem joinCell_eq (m : OutputMode) (content rendered : List Sample) : joinCell m content rendered =
    (if m = .overlay then List.zipWith fun a b : Sample => BitVec.ofInt 16 (max (-32768) (min 32767 (a.toInt + b.toInt)))
      else fun _ rendered => rendered) content rendered := by
  cases m
  · exact addCells_eq _ _
  · rfl

/-- The load of a line without its contexts plays its content. -/
theorem State.loadLine_without (hp : (s.line l).pendingMode = none) (hd : (s.line l).loadDue = true) (hl : s.resetLow = false) :
    ∃ u, exec (.load l) (s.setLine l { s.line l with background := none, foreground := none }) = .next u ∧
      ((u.line l).half (s.line l).playing.other).samples = (s.line l).content (s.loadInput l).slot s.fillPattern := by
  have hi : (s.setLine l { s.line l with background := none, foreground := none }).loadInput l = s.loadInput l :=
    State.loadInput_setLine rfl rfl
  refine ⟨_, exec_load (s := s.setLine l { s.line l with background := none, foreground := none }) hl ?_, ?_⟩
  · rw [State.line_setLine_same]
    exact hd
  · rw [State.line_loadLine, State.line_setLine_same, hi]
    have hloaded := Line.loadCell_loaded { s.line l with background := none, foreground := none } (s.loadInput l)
    rw [Line.playedCell_quiet (L := { s.line l with background := none, foreground := none }) hp rfl] at hloaded
    exact congrArg PlayHalf.samples hloaded

/-- Settles O16: the load of an ACTIVE program is its content joined with the cell rendered, and the run counted on. -/
theorem programContextsRenderAndComplete : Obligations.ProgramContextsRenderAndComplete := by
  rintro s l v m k left run p g begun ⟨hl, hd, hp⟩ hroom h59 hctx rfl rfl rfl rfl
  have ha : (s.line l).activeContext = some (v, ⟨.active, m, .program k run⟩) := by
    obtain ⟨rfl, hf⟩ | ⟨rfl, hf, hb⟩ := hctx
    · exact Line.activeContext_foreground hf
    · exact Line.activeContext_background hf hb
  obtain ⟨N, R, hN, hR, hes, hhalf, hfg, hbg, -, -, hsup⟩ := Line.loadCell_active (i := s.loadInput l) hp h59 ha
  obtain ⟨u, hu, hcell⟩ := State.loadLine_without hp hd hl
  refine ⟨_, u, exec_load hl hd, s.loadFrame l, hu, ?_⟩
  have hline : (s.loadLine l).line l = N.1 := by rw [State.line_loadLine, hN]
  obtain ⟨_, _, _, _, _, hprep⟩ := (s.line l).prepared_frame (s.loadInput l) ⟨.active, m, .program k run⟩
  rw [hline, hhalf, hcell]
  refine ⟨?_, rfl, fun _ => ?_, fun next htone hnext => ?_, fun n h1 hs hr hn => ?_⟩
  · rw [← joinCell_eq]
    exact congrArg (joinCell m _) ProgramRun.render_eq
  · rw [hsup, Line.prepared_suppressed]
    simp only [StoreCell.holdsMedia, Bool.and_eq_true]
  · have hgoes : run.next (programAt (s.loadInput l).programs k) (s.loadInput l).tones = some next := by
      rw [ProgramRun.next_eq]
      exact ProgramRun.counted_some htone hnext
    rw [Line.renderStep_goes hgoes] at hR
    rw [hR] at hes hfg hbg
    refine ⟨State.Room.loadQueued (hroom.mono (Nat.zero_le 1)) (by rw [← hN, hes]), ?_, ?_⟩
    · rintro rfl
      rw [hfg, hbg, hprep]
      exact ⟨rfl, rfl⟩
    · rintro rfl
      obtain ⟨h, -⟩ | ⟨-, hf, -⟩ := hctx
      · exact nomatch h
      · rw [hfg, hbg, hprep]
        exact ⟨hf, rfl⟩
  · have hdone : run.next (programAt (s.loadInput l).programs k) (s.loadInput l).tones = none := by
      rw [ProgramRun.next_eq]
      exact ProgramRun.counted_none h1 hs hr hn
    rw [Line.renderStep_completes hdone] at hR
    rw [hR] at hes hfg hbg
    refine ⟨State.Room.loadQueued hroom (by rw [← hN, hes]), ?_, ?_, ?_⟩
    · rw [hfg, hprep]
      obtain ⟨rfl, -⟩ | ⟨rfl, hf, -⟩ := hctx
      · rfl
      · exact hf
    · rw [hbg, hprep]
      obtain ⟨rfl, -⟩ | ⟨rfl, -, -⟩ := hctx <;> rfl
    · rw [exec_signalDone (v := v) hl, exec_load hl hd]
      have hev : ((s.line l).rendered (s.loadInput l)).2 = [.signalDone v] := by
        rw [Line.rendered_active hp ha]
        exact congrArg Prod.snd (Line.renderStep_completes hdone)
      exact hev

end Render
end Sys2Proof.Machine
end

section
/-! The load of a caller identification: its cells, its phases and its ends (R76, R78, R129, R132, R134, R135, R138 to R140). -/

namespace Sys2Proof.Machine

section Caller

variable {L : Line} {i : LoadInput} {s : State} {l : Fin 4} {v : Level} {c : Context} {m : OutputMode} {k k' : CtxKind}

/-! ### The FSK of a cell (R130, R132) -/

section Fsk

variable {onHook : Bool} {msg : CidMessage} {f : Fsk}

theorem Fsk.advance_done (h : f.done onHook msg = true) : f.advance onHook msg = f := if_pos h

theorem Fsk.after_done (h : f.done onHook msg = true) : ∀ n, f.after onHook msg n = f
  | 0 => rfl
  | n + 1 => by rw [Fsk.after, Fsk.advance_done h, Fsk.after_done h n]

/-- A sample of an FSK that goes on is three twentieths of a bit (R130). -/
theorem Fsk.advance_bits (h : f.done onHook msg = false) (ha : f.accumulator < 20) :
    (f.advance onHook msg).accumulator < 20 ∧
      20 * (f.advance onHook msg).bit + (f.advance onHook msg).accumulator = 20 * f.bit + f.accumulator + 3 := by
  unfold Fsk.advance
  rw [if_neg (by rw [h]; exact Bool.false_ne_true)]
  dsimp only
  split <;> dsimp only <;> omega

/-- After `n` samples all bits have been sent, or `3 * n` twentieths of them have gone. -/
theorem Fsk.after_bits : ∀ (n : Nat) {f : Fsk}, f.accumulator < 20 → (f.after onHook msg n).done onHook msg = true ∨
    (f.after onHook msg n).accumulator < 20 ∧
      20 * (f.after onHook msg n).bit + (f.after onHook msg n).accumulator = 20 * f.bit + f.accumulator + 3 * n
  | 0, f, ha => .inr ⟨ha, rfl⟩
  | n + 1, f, ha => by
    cases hd : f.done onHook msg with
    | true =>
      rw [Fsk.after_done hd]
      exact .inl hd
    | false =>
      obtain ⟨ha', hb⟩ := Fsk.advance_bits hd ha
      refine (Fsk.after_bits n ha').imp id fun h => ⟨h.1, ?_⟩
      have := h.2
      rw [Fsk.after]
      omega

/-- A cell sends six bits (R130, R132). -/
theorem Fsk.after_cell_done (ha : f.accumulator < 20) (h : preambleBits onHook + 10 * (msg.payload.length + 3) ≤ f.bit + 6) :
    (f.after onHook msg 40).done onHook msg = true := by
  obtain hd | ⟨ha', hb⟩ := Fsk.after_bits (onHook := onHook) (msg := msg) 40 ha
  · exact hd
  · have hlen : msg.bytes.length = msg.payload.length + 3 := by simp [CidMessage.bytes]
    rw [Fsk.done, fskBits, hlen]
    exact decide_eq_true (by omega)

end Fsk

/-! ### What the load of a CID leaves -/

/-- The line has the CID buffer and the attenuation of `L`. -/
def Line.SameCid (L P : Line) : Prop := P.cid = L.cid ∧ P.cidAttenuation = L.cidAttenuation

theorem Line.SameCid.message {P : Line} {msg : CidMessage} (h : L.SameCid P) (hm : L.cid.message = some msg) : P.cidMessage = msg := by
  rw [Line.cidMessage, h.1, hm]
  rfl

theorem Line.SameCid.fskOf {P : Line} (h : L.SameCid P) (f : Option Fsk) : P.fskOf f = f.getD (Fsk.start L.cidAttenuation) := by
  rw [Line.fskOf, h.2]

/-- The foreground goes on, whatever the line's playout: its context and its records after the load. -/
theorem State.loadLine_goes (hr : s.LoadReady l) (hroom : s.Room 2) (h59 : (s.line l).detector.playoutAnswer ≠ 59)
    (hf : (s.line l).foreground = some ⟨.active, m, k⟩)
    (hgo : ∀ P, (s.line l).SameCid P → Line.renderStep s.tones s.programs P .foreground ⟨.active, m, k⟩ =
      (P.setContext .foreground ⟨.active, m, k'⟩, [])) :
    s.Queued (s.loadLine l) l s.g [] s.cLink.response ∧ ((s.loadLine l).line l).foreground = some ⟨.active, m, k'⟩ := by
  obtain ⟨hl, hd, hp⟩ := hr
  obtain ⟨N, R, hN, hR, hes, -, hfg, -⟩ := Line.loadCell_active (i := s.loadInput l) hp h59 (Line.activeContext_foreground hf)
  obtain ⟨_, _, _, _, _, hprep⟩ := (s.line l).prepared_frame (s.loadInput l) ⟨.active, m, k⟩
  have hstep := hR.trans (hgo ((s.line l).prepared (s.loadInput l) ⟨.active, m, k⟩) (by rw [hprep]; exact ⟨rfl, rfl⟩))
  rw [hstep] at hes hfg
  rw [State.line_loadLine, ← hN]
  exact ⟨State.Room.loadQueued (es := []) (hroom.mono (Nat.zero_le 2)) (by rw [← hN, hes]), hfg⟩

/-- An off-hook CID ends with the record `e`. -/
theorem State.loadLine_ends {e : Event} (hr : s.LoadReady l) (hroom : s.Room 2) (h59 : (s.line l).detector.playoutAnswer ≠ 59)
    (hf : (s.line l).foreground = some ⟨.active, m, k⟩)
    (hend : ∀ P, (s.line l).SameCid P → Line.renderStep s.tones s.programs P .foreground ⟨.active, m, k⟩ = (P.endOffHookCid, [e])) :
    ((s.loadLine l).line l).foreground = none ∧ ((s.loadLine l).line l).cid = ⟨(s.line l).cid.message, false⟩ ∧
      ((s.loadLine l).line l).background = (s.line l).background.map (fun c => { c with state := .active }) ∧
      s.Queued (s.loadLine l) l s.g [e] s.cLink.response ∧ s.renderEvents l = [e] := by
  obtain ⟨hl, hd, hp⟩ := hr
  have ha := Line.activeContext_foreground hf
  obtain ⟨N, R, hN, hR, hes, -, hfg, hbg, hcid, -⟩ := Line.loadCell_active (i := s.loadInput l) hp h59 ha
  obtain ⟨_, _, _, _, _, hprep⟩ := (s.line l).prepared_frame (s.loadInput l) ⟨.active, m, k⟩
  have hstep := hR.trans (hend ((s.line l).prepared (s.loadInput l) ⟨.active, m, k⟩) (by rw [hprep]; exact ⟨rfl, rfl⟩))
  have hev : s.renderEvents l = [e] := by
    show ((s.line l).rendered (s.loadInput l)).2 = [e]
    rw [Line.rendered_active hp ha, ← hR, hstep]
  rw [hstep, hprep] at hfg hbg hcid
  rw [hstep] at hes
  rw [State.line_loadLine, ← hN]
  exact ⟨hfg, hcid, hbg, State.Room.loadQueued (hroom.mono (Nat.le_succ 1)) (by rw [← hN, hes]), hev⟩

theorem State.loadLine_played (hr : s.LoadReady l) (hf : (s.line l).foreground = some ⟨.active, .exclusive, k⟩) :
    (((s.loadLine l).line l).half (s.line l).playing.other).slip = 0 ∧
      (((s.loadLine l).line l).half (s.line l).playing.other).samples =
        (s.line l).renderCell s.tones s.programs ⟨.active, .exclusive, k⟩ := by
  obtain ⟨hl, hd, hp⟩ := hr
  have ha := Line.activeContext_foreground hf
  rw [State.line_loadLine, Line.loadCell_loaded, Line.playedCell_active hp ha, Line.playedSlip_active hp ha]
  exact ⟨rfl, rfl⟩

/-! ### The phases of an off-hook CID (R138 to R140) -/

section Phases

variable {tones : List ToneEntry} {programs : List ProgramRecord} {r r' : AlertRun}

theorem Line.renderStep_offHook_goes (h : L.alertNext tones r = .inl r') :
    L.renderStep tones programs v ⟨.active, m, .offHookCid r⟩ = (L.setContext v ⟨.active, m, .offHookCid r'⟩, []) := by
  simp only [Line.renderStep, h]

theorem Line.renderStep_offHook_ends {e : Event} (h : L.alertNext tones r = .inr e) :
    L.renderStep tones programs v ⟨.active, m, .offHookCid r⟩ = (L.endOffHookCid, [e]) := by
  simp only [Line.renderStep, h]

theorem Line.renderStep_onHook_goes {fsk : Option Fsk} (h : ((L.fskOf fsk).after true L.cidMessage 40).done true L.cidMessage = false) :
    L.renderStep tones programs v ⟨.active, m, .onHookCid fsk⟩ =
      (L.setContext v ⟨.active, m, .onHookCid (some ((L.fskOf fsk).after true L.cidMessage 40))⟩, []) := by
  simp only [Line.renderStep, h, Bool.false_eq_true, if_false]

theorem Line.renderStep_onHook_ends {fsk : Option Fsk} (h : ((L.fskOf fsk).after true L.cidMessage 40).done true L.cidMessage = true) :
    L.renderStep tones programs v ⟨.active, m, .onHookCid fsk⟩ = L.onHookCidSent := by
  simp only [Line.renderStep, h, if_true]

variable {e n : Nat} {tone : Option Tone} {fsk : Option Fsk}

theorem Line.alertNext_alert (hn : n < 15) : L.alertNext tones ⟨e, .alert, n, tone, fsk⟩ =
    .inl ⟨e, .alert, n + 1, some ((tone.getD (Tone.start (toneAt tones e))).after 40), fsk⟩ := by
  simp only [Line.alertNext, AlertRun.alertTone, if_neg (show ¬n + 1 = 16 by omega)]

theorem Line.alertNext_alert_last : L.alertNext tones ⟨e, .alert, 15, tone, fsk⟩ =
    .inl ⟨e, .awaitAck, 0, some ((tone.getD (Tone.start (toneAt tones e))).after 40), fsk⟩ := by
  simp only [Line.alertNext, AlertRun.alertTone, AlertRun.enter, if_true]

theorem Line.alertNext_awaitAck (hn : n < 31) : L.alertNext tones ⟨e, .awaitAck, n, tone, fsk⟩ = .inl ⟨e, .awaitAck, n + 1, tone, fsk⟩ := by
  simp only [Line.alertNext, if_neg (show ¬n + 1 = 32 by omega)]

theorem Line.alertNext_awaitAck_last : L.alertNext tones ⟨e, .awaitAck, 31, tone, fsk⟩ = .inr .cidNoAck := by
  simp only [Line.alertNext, if_true]

theorem Line.alertNext_settle (hn : n < 9) : L.alertNext tones ⟨e, .settle, n, tone, fsk⟩ = .inl ⟨e, .settle, n + 1, tone, fsk⟩ := by
  simp only [Line.alertNext, if_neg (show ¬n + 1 = 10 by omega)]

theorem Line.alertNext_settle_last : L.alertNext tones ⟨e, .settle, 9, tone, fsk⟩ = .inl ⟨e, .send, 0, tone, fsk⟩ := by
  simp only [Line.alertNext, AlertRun.enter, if_true]

theorem Line.alertNext_send (h : ((L.fskOf fsk).after false L.cidMessage 40).done false L.cidMessage = false) :
    L.alertNext tones ⟨e, .send, n, tone, fsk⟩ = .inl ⟨e, .send, n + 1, tone, some ((L.fskOf fsk).after false L.cidMessage 40)⟩ := by
  simp only [Line.alertNext, h, Bool.false_eq_true, if_false]

theorem Line.alertNext_send_last (h : ((L.fskOf fsk).after false L.cidMessage 40).done false L.cidMessage = true) :
    L.alertNext tones ⟨e, .send, n, tone, fsk⟩ = .inr .cidSent := by
  simp only [Line.alertNext, h, if_true]

end Phases

/-! ### The cells (R129, R138) -/

section Cells

variable {tones : List ToneEntry} {programs : List ProgramRecord} {r : AlertRun} {e n : Nat} {tone : Option Tone} {fsk : Option Fsk}
  {msg : CidMessage}

theorem Line.renderCell_offHook : L.renderCell tones programs ⟨.active, m, .offHookCid r⟩ = L.alertCell tones r := by
  simp only [Line.renderCell]

theorem Line.alertCell_alert : L.alertCell tones ⟨e, .alert, n, tone, fsk⟩ = (tone.getD (Tone.start (toneAt tones e))).samples 40 := by
  simp only [Line.alertCell, AlertRun.alertTone]

theorem Line.alertCell_send (hm : L.cid.message = some msg) :
    L.alertCell tones ⟨e, .send, n, tone, fsk⟩ = (fsk.getD (Fsk.start L.cidAttenuation)).samples false msg 40 := by
  simp only [Line.alertCell, Line.fskOf, Line.cidMessage, hm, Option.getD_some]

theorem Line.renderCell_onHook (hm : L.cid.message = some msg) :
    L.renderCell tones programs ⟨.active, m, .onHookCid fsk⟩ = (fsk.getD (Fsk.start L.cidAttenuation)).samples true msg 40 := by
  simp only [Line.renderCell, Line.fskOf, Line.cidMessage, hm, Option.getD_some]

end Cells

/-! ### The rows that end a phase -/

theorem State.alertAt_eq {st : CtxState} {r : AlertRun} (hp : (s.line l).pendingMode = none)
    (hf : (s.line l).foreground = some ⟨st, m, .offHookCid r⟩) : s.alertAt l = some (r.phase, r.cells) := by
  have h : (s.atRender l).foreground = some ⟨st, m, .offHookCid r⟩ := by
    obtain ⟨_, _, _, _, _, hc⟩ := (s.line l).stageMode.1.stageContent_frame (s.loadInput l).slot
    rw [State.atRender, hc, Line.stageMode_none hp]
    exact hf
  simp only [State.alertAt, h]

theorem exec_alertEnd (hl : s.resetLow = false) (h : s.alertAt l = some (.alert, 15)) : exec (.alertEnd l) s = exec (.load l) s :=
  (State.next_high hl).trans ((congrArg Host.Outcome.next (if_pos h)).trans (State.next_high hl).symm)

theorem exec_cidNoAck (hl : s.resetLow = false) (h : s.alertAt l = some (.awaitAck, 31)) : exec (.cidNoAck l) s = exec (.load l) s :=
  (State.next_high hl).trans ((congrArg Host.Outcome.next (if_pos h)).trans (State.next_high hl).symm)

theorem exec_settleEnd (hl : s.resetLow = false) (h : s.alertAt l = some (.settle, 9)) : exec (.settleEnd l) s = exec (.load l) s :=
  (State.next_high hl).trans ((congrArg Host.Outcome.next (if_pos h)).trans (State.next_high hl).symm)

theorem exec_cidSent (hl : s.resetLow = false) (h : (s.renderEvents l).head? = some .cidSent) :
    exec (.cidSent l) s = exec (.load l) s :=
  (State.next_high hl).trans ((congrArg Host.Outcome.next (if_pos h)).trans (State.next_high hl).symm)

/-- An on-hook CID whose last bits this load sends, with its Ring Controller in CID-SEND (R132, R135). -/
theorem State.loadLine_sent {f : Option Fsk} {begun remaining : Nat} (hr : s.LoadReady l) (hroom : s.Room 2)
    (h59 : (s.line l).detector.playoutAnswer ≠ 59) (hf : (s.line l).foreground = some ⟨.active, m, .onHookCid f⟩)
    (hring : (s.line l).ring.state = .cidSend begun remaining)
    (hend : ∀ P, (s.line l).SameCid P → Line.renderStep s.tones s.programs P .foreground ⟨.active, m, .onHookCid f⟩ = P.onHookCidSent) :
    ((s.loadLine l).line l).foreground = none ∧ ((s.loadLine l).line l).cid = ⟨(s.line l).cid.message, false⟩ ∧
      ((s.loadLine l).line l).background = (s.line l).background.map (fun c => { c with state := .active }) ∧
      ((s.line l).ring.bursts ≠ 1 → ((s.loadLine l).line l).ring = { (s.line l).ring with state := .off begun remaining, cid := none } ∧
        s.Queued (s.loadLine l) l s.g [.cidSent] s.cLink.response) ∧
      ((s.line l).ring.bursts = 1 → ((s.loadLine l).line l).ring = { (s.line l).ring with state := .idle, cid := none } ∧
        s.Queued (s.loadLine l) l s.g [.cidSent, .ringDone .count] s.cLink.response) ∧
      (s.renderEvents l).head? = some .cidSent := by
  obtain ⟨hl, hd, hp⟩ := hr
  have ha := Line.activeContext_foreground hf
  obtain ⟨N, R, hN, hR, hes, -, hfg, hbg, hcid, hrg, -⟩ := Line.loadCell_active (i := s.loadInput l) hp h59 ha
  obtain ⟨_, _, _, _, _, hprep⟩ := (s.line l).prepared_frame (s.loadInput l) ⟨.active, m, .onHookCid f⟩
  have hstep := hR.trans (hend ((s.line l).prepared (s.loadInput l) ⟨.active, m, .onHookCid f⟩) (by rw [hprep]; exact ⟨rfl, rfl⟩))
  have hev : (s.renderEvents l).head? = some .cidSent := by
    show ((s.line l).rendered (s.loadInput l)).2.head? = some .cidSent
    rw [Line.rendered_active hp ha, ← hR, hstep]
    rfl
  have hfp : ((s.line l).prepared (s.loadInput l) ⟨.active, m, .onHookCid f⟩).foreground = some ⟨.active, m, .onHookCid f⟩ := by
    rw [hprep]
    exact hf
  rw [Line.onHookCidSent, Line.endOnHookCid_sending hfp, Line.afterCid_turns (begun := begun) (remaining := remaining)
    (by rw [hprep]; exact .inl hring), hprep] at hstep
  rw [State.line_loadLine, ← hN, hfg, hbg, hcid, hrg]
  by_cases h1 : (s.line l).ring.bursts = 1
  · rw [if_pos h1] at hstep
    rw [hstep] at hes
    rw [hstep]
    exact ⟨rfl, rfl, rfl, fun h => absurd h1 h, fun _ => ⟨rfl, State.Room.loadQueued hroom (by rw [← hN, hes])⟩, hev⟩
  · rw [if_neg h1] at hstep
    rw [hstep] at hes
    rw [hstep]
    exact ⟨rfl, rfl, rfl, fun _ => ⟨rfl, State.Room.loadQueued (hroom.mono (Nat.le_succ 1)) (by rw [← hN, hes])⟩, fun h => absurd h h1, hev⟩

/-- Settles O20: each phase of an off-hook CID by one equation of its rendering, and the ends of either CID. -/
theorem callerIdGoesThroughItsPhases : Obligations.CallerIdGoesThroughItsPhases := by
  intro s l m e tone fsk hr hroom h59
  obtain ⟨hl, hd, hp⟩ := id hr
  have answers {c : Instr} {P : State → Prop} (hc : exec c s = exec (.load l) s) (h : P (s.loadLine l)) : Answers c s P :=
    ⟨_, hc.trans (exec_load hl hd), h⟩
  refine ⟨fun hf => ?_, fun hf => ?_, fun hf => ?_, fun f k msg hf ha hm hb => ?_, fun f msg begun remaining hf ha hs hm hb => ?_,
    fun phase k begun f msg hf hm hbegun hfsk => ?_, fun f msg hf hm hfsk => ?_⟩
  · obtain ⟨hq, hfg⟩ := State.loadLine_goes hr hroom h59 hf fun P _ => Line.renderStep_offHook_goes Line.alertNext_alert_last
    exact answers (exec_alertEnd hl (State.alertAt_eq hp hf)) ⟨⟨_, hfg⟩, hq, s.loadFrame l⟩
  · obtain ⟨hq, hfg⟩ := State.loadLine_goes hr hroom h59 hf fun P _ => Line.renderStep_offHook_goes Line.alertNext_settle_last
    exact answers (exec_settleEnd hl (State.alertAt_eq hp hf)) ⟨hfg, hq, s.loadFrame l⟩
  · obtain ⟨hfg, hcid, hbg, hq, -⟩ := State.loadLine_ends hr hroom h59 hf fun P _ => Line.renderStep_offHook_ends Line.alertNext_awaitAck_last
    exact answers (exec_cidNoAck hl (State.alertAt_eq hp hf)) ⟨hfg, hcid, hbg, hq, s.loadFrame l⟩
  · obtain ⟨hfg, hcid, hbg, hq, hev⟩ := State.loadLine_ends (e := .cidSent) hr hroom h59 hf fun P hP =>
      Line.renderStep_offHook_ends (Line.alertNext_send_last (by
        rw [hP.message hm]
        exact Fsk.after_cell_done (f := f) ha hb))
    rw [hm] at hcid
    exact answers (exec_cidSent hl (by rw [hev]; rfl)) ⟨hfg, hcid, hbg, hq, s.loadFrame l⟩
  · obtain ⟨hfg, hcid, hbg, hoff, hidle, hev⟩ := State.loadLine_sent hr hroom h59 hf hs fun P hP =>
      Line.renderStep_onHook_ends (by
        rw [hP.message hm]
        exact Fsk.after_cell_done (f := f) ha hb)
    rw [hm] at hcid
    exact answers (exec_cidSent hl hev) ⟨hfg, hcid, hbg, hoff, hidle, s.loadFrame l⟩
  · obtain ⟨hslip, hcell⟩ := State.loadLine_played hr hf
    subst hbegun hfsk
    refine answers rfl ⟨s.loadFrame l, hslip, ?_, ?_, ?_, ?_⟩
    · rw [hcell, Line.renderCell_offHook]
      cases phase with
      | alert => exact Line.alertCell_alert
      | awaitAck => rfl
      | settle => rfl
      | send => exact Line.alertCell_send hm
    · rintro rfl hk
      exact State.loadLine_goes hr hroom h59 hf fun P _ => Line.renderStep_offHook_goes (Line.alertNext_alert hk)
    · rintro (⟨rfl, hk⟩ | ⟨rfl, hk⟩)
      · exact State.loadLine_goes hr hroom h59 hf fun P _ => Line.renderStep_offHook_goes (Line.alertNext_awaitAck hk)
      · exact State.loadLine_goes hr hroom h59 hf fun P _ => Line.renderStep_offHook_goes (Line.alertNext_settle hk)
    · rintro rfl hgo
      refine State.loadLine_goes hr hroom h59 hf fun P hP => ?_
      rw [← hP.message hm, ← hP.fskOf] at hgo ⊢
      exact Line.renderStep_offHook_goes (Line.alertNext_send hgo)
  · obtain ⟨hslip, hcell⟩ := State.loadLine_played hr hf
    subst hfsk
    refine answers rfl ⟨s.loadFrame l, hslip, ?_, fun hgo => ?_⟩
    · rw [hcell]
      exact Line.renderCell_onHook hm
    · refine State.loadLine_goes hr hroom h59 hf fun P hP => ?_
      rw [← hP.message hm, ← hP.fskOf] at hgo ⊢
      exact Line.renderStep_onHook_goes hgo

end Caller
end Sys2Proof.Machine
end

section
/-! The rows that name a part of the load, of the detector step, of the hook sample or of the ring step: when each occurs (R75, R82, R116, R117,
R132, R134, R138 to R140, R144, R146, R147, R153, R154, R160, R161, R164, R165). -/

namespace Sys2Proof.Machine

section Rows

variable {s : State} {l : Fin 4} {L : Line} {i : LoadInput}

/-! ### A row as a condition on a whole event -/

/-- A row that takes a whole event where its condition stands, and else nothing. -/
theorem State.part_row {P : State → Prop} [DecidablePred P] {F : State → State} {c w : Instr} {occurs : Prop}
    (hc : exec c s = s.take fun s => if P s then F s else s) (hw : exec w s = s.take F) (hl : s.resetLow = false) (ho : occurs ↔ P s) :
    (occurs → exec c s = exec w s) ∧ (¬occurs → exec c s = .next s) := by
  refine ⟨fun h => ?_, fun h => ?_⟩
  · rw [hc, hw]
    exact (State.next_high hl).trans ((congrArg Host.Outcome.next (if_pos (ho.1 h))).trans (State.next_high hl).symm)
  · rw [hc]
    exact (State.next_high hl).trans (congrArg Host.Outcome.next (if_neg fun hp => h (ho.2 hp)))

/-- A row whose whole event is not due. -/
theorem State.row_idle {f : State → State} (h : f s = s) : s.take f = .next s := by
  rw [State.take, h, ite_self]

/-! ### The load (R75, R82) -/

theorem State.willStarve_iff : s.willStarve l = true ↔ (s.loadInput l).slot.filled = false ∧ (s.line l).playout = .running ∧
    (s.line l).config.starve ≤ min 65535 ((s.line l).run + 1) := by
  have h : (s.line l).stageMode.1.starves = (s.line l).starves := by
    obtain ⟨_, _, _, _, _, _, _, _, hm, -⟩ := (s.line l).stageMode_calls
    rw [hm]
    rfl
  rw [State.willStarve, h, Bool.and_eq_true, Bool.not_eq_true', Line.starves_iff]

theorem Line.closesWindow_iff : L.closesWindow = true ↔ L.config.window ≤ L.window.counter + 1 := decide_eq_true_iff

/-! ### Rendering at the load (R116, R117, R132, R138 to R140) -/

/-- A load that applies a pending mode finds no context. -/
theorem Line.CidLaw.noContexts (h : L.CidLaw) {p : PendingMode} (hp : L.pendingMode = some p) : L.stageMode.1.NoContexts := by
  obtain ⟨cid, ring, x, es, hc, -⟩ := h.clears
  have hm : L.stageMode = L.changeMode p := by rw [Line.stageMode, hp]
  rw [hm, hc.changeMode p]
  exact ⟨rfl, rfl⟩

theorem State.renderEvents_mode (h : (s.line l).CidLaw) {p : PendingMode} (hp : (s.line l).pendingMode = some p) : s.renderEvents l = [] := by
  have ha : (s.atRender l).activeContext = none :=
    (Line.activeContext_stageContent _).trans (Line.activeContext_none (h.noContexts hp))
  rw [State.renderEvents, Line.stageRender, ha]

theorem State.alertAt_mode (h : (s.line l).CidLaw) {p : PendingMode} (hp : (s.line l).pendingMode = some p) : s.alertAt l = none := by
  have hf : (s.atRender l).foreground = none := by
    obtain ⟨_, _, _, _, _, hc⟩ := (s.line l).stageMode.1.stageContent_frame (s.loadInput l).slot
    rw [State.atRender, hc]
    exact (h.noContexts hp).2
  simp only [State.alertAt, hf]

/-- The load now due finds an off-hook CID in this phase, with this many cells rendered in it. -/
theorem State.alertAt_iff (h : (s.line l).CidLaw) {phase : AlertPhase} {n : Nat} : s.alertAt l = some (phase, n) ↔
    (s.line l).pendingMode = none ∧
      ∃ st m e tone fsk, (s.line l).foreground = some ⟨st, m, .offHookCid ⟨e, phase, n, tone, fsk⟩⟩ := by
  cases hp : (s.line l).pendingMode with
  | some p =>
    rw [State.alertAt_mode h hp]
    exact ⟨nofun, fun h => nomatch h.1⟩
  | none =>
    refine ⟨fun ha => ⟨rfl, ?_⟩, ?_⟩
    · have hf : (s.atRender l).foreground = (s.line l).foreground := by
        obtain ⟨_, _, _, _, _, hc⟩ := (s.line l).stageMode.1.stageContent_frame (s.loadInput l).slot
        rw [State.atRender, hc, Line.stageMode_none hp]
      rw [State.alertAt, hf] at ha
      split at ha
      next c hc =>
        split at ha
        next r hr =>
          obtain ⟨st, m, k⟩ := c
          obtain ⟨e, ph, k, tone, fsk⟩ := r
          cases ha
          subst hr
          exact ⟨_, _, _, _, _, hc⟩
        next => cases ha
      next => cases ha
    · rintro ⟨-, st, m, e, tone, fsk, hf⟩
      exact State.alertAt_eq hp hf

theorem State.renderEvents_active {v : Level} {x : Context} (hp : (s.line l).pendingMode = none)
    (ha : (s.line l).activeContext = some (v, x)) :
    s.renderEvents l = (Line.renderStep s.tones s.programs ((s.line l).prepared (s.loadInput l) x) v x).2 :=
  congrArg Prod.snd (Line.rendered_active (i := s.loadInput l) hp ha)

theorem State.renderEvents_none (hp : (s.line l).pendingMode = none) (ha : (s.line l).activeContext = none) : s.renderEvents l = [] :=
  congrArg Prod.snd (Line.rendered_quiet (i := s.loadInput l) hp ha)

theorem Line.prepared_sameCid (L : Line) (i : LoadInput) (c : Context) : L.SameCid (L.prepared i c) := by
  obtain ⟨_, _, _, _, _, hprep⟩ := L.prepared_frame i c
  rw [hprep]
  exact ⟨rfl, rfl⟩

/-- A program is complete after the cell that this load renders (R116). -/
theorem ProgramRun.next_none_iff {p : ProgramRecord} {tones : List ToneEntry} {run : ProgramRun} : run.next p tones = none ↔
    (run.cellsLeft = 1 ∨ run.cellsLeft = 0 ∧ (segmentAt p run).duration ≤ 1) ∧ p.segments.length ≤ run.segment + 1 ∧
      ∃ n, run.repeats = some n ∧ n ≤ 1 := by
  have hleft : run.left p ≤ 1 ↔ run.cellsLeft = 1 ∨ run.cellsLeft = 0 ∧ (segmentAt p run).duration ≤ 1 := by
    unfold ProgramRun.left
    split <;> omega
  rw [ProgramRun.next_eq, ← hleft]
  refine ⟨fun h => ?_, fun ⟨h1, hs, n, hr, hn⟩ => ProgramRun.counted_none h1 hs hr hn⟩
  unfold ProgramRun.counted at h
  split at h
  · cases h
  next h1 =>
    split at h
    · cases h
    next hs =>
      split at h
      · cases h
      next n hr =>
        split at h
        · cases h
        next hn => exact ⟨Nat.not_lt.1 h1, Nat.not_lt.1 hs, n, hr, Nat.not_lt.1 hn⟩

section Step

variable {tones : List ToneEntry} {programs : List ProgramRecord} {v : Level} {st : CtxState} {m : OutputMode}

theorem Line.alertNext_inr {r : AlertRun} {e : Event} (h : L.alertNext tones r = .inr e) :
    e = .cidNoAck ∨ e = .cidSent ∧ r.phase = .send ∧ ((L.fskOf r.fsk).after false L.cidMessage 40).done false L.cidMessage = true := by
  unfold Line.alertNext at h
  split at h
  · dsimp only at h
    split at h <;> cases h
  · split at h <;> cases h
    exact .inl rfl
  · split at h <;> cases h
  next hp =>
    dsimp only at h
    split at h
    next hd =>
      cases h
      exact .inr ⟨rfl, hp, hd⟩
    · cases h

/-- An on-hook CID queues CID SENT first, or nothing. -/
theorem Line.renderStep_onHook_records {f : Option Fsk} :
    (((L.fskOf f).after true L.cidMessage 40).done true L.cidMessage = true →
      (L.renderStep tones programs v ⟨st, m, .onHookCid f⟩).2.head? = some .cidSent) ∧
    (((L.fskOf f).after true L.cidMessage 40).done true L.cidMessage = false → (L.renderStep tones programs v ⟨st, m, .onHookCid f⟩).2 = []) := by
  refine ⟨fun h => ?_, fun h => ?_⟩
  · simp only [Line.renderStep, h, if_true, Line.onHookCidSent, List.head?_cons]
  · simp only [Line.renderStep, h, Bool.false_eq_true, if_false]

/-- An off-hook CID queues the record that ends it, or nothing. -/
theorem Line.renderStep_offHook_records {r : AlertRun} : (L.renderStep tones programs v ⟨st, m, .offHookCid r⟩).2 = [] ∨
    ∃ e, L.alertNext tones r = .inr e ∧ (L.renderStep tones programs v ⟨st, m, .offHookCid r⟩).2 = [e] := by
  cases h : L.alertNext tones r with
  | inl r' => exact .inl (by simp only [Line.renderStep, h])
  | inr e => exact .inr ⟨e, rfl, by simp only [Line.renderStep, h]⟩

theorem Line.renderStep_program_records {r : Nat} {run : ProgramRun} :
    (run.next (programAt programs r) tones = none → (L.renderStep tones programs v ⟨st, m, .program r run⟩).2 = [.signalDone v]) ∧
    (run.next (programAt programs r) tones ≠ none → (L.renderStep tones programs v ⟨st, m, .program r run⟩).2 = []) := by
  refine ⟨fun h => by simp only [Line.renderStep, h], fun h => ?_⟩
  cases hn : run.next (programAt programs r) tones with
  | none => exact absurd hn h
  | some r' => simp only [Line.renderStep, hn]

/-- Only the last cell of a program queues SIGNAL DONE (R117). -/
theorem Line.renderStep_signalDone_iff {x : Context} : (∃ w, (L.renderStep tones programs v x).2 = [.signalDone w]) ↔
    ∃ r run, x.kind = .program r run ∧ run.next (programAt programs r) tones = none := by
  obtain ⟨st, m, k⟩ := x
  cases k with
  | program r run =>
    obtain ⟨hdone, hgoes⟩ := Line.renderStep_program_records (L := L) (tones := tones) (programs := programs) (v := v) (st := st) (m := m)
      (r := r) (run := run)
    refine ⟨fun ⟨w, h⟩ => ⟨r, run, rfl, ?_⟩, ?_⟩
    · by_contra hn
      rw [hgoes hn] at h
      cases h
    · rintro ⟨_, _, ⟨⟩, hn⟩
      exact ⟨v, hdone hn⟩
  | onHookCid f =>
    obtain ⟨hsent, hgoes⟩ := Line.renderStep_onHook_records (L := L) (tones := tones) (programs := programs) (v := v) (st := st) (m := m)
      (f := f)
    refine ⟨fun ⟨w, h⟩ => ?_, fun ⟨_, _, hk, _⟩ => nomatch hk⟩
    cases hd : ((L.fskOf f).after true L.cidMessage 40).done true L.cidMessage with
    | true => exact nomatch h ▸ hsent hd
    | false => exact nomatch h.symm.trans (hgoes hd)
  | offHookCid r =>
    refine ⟨fun ⟨w, h⟩ => ?_, fun ⟨_, _, hk, _⟩ => nomatch hk⟩
    obtain hn | ⟨e, he, hr⟩ := Line.renderStep_offHook_records (L := L) (tones := tones) (programs := programs) (v := v) (st := st) (m := m)
      (r := r)
    · exact nomatch h.symm.trans hn
    · have hw := List.singleton_inj.1 (h.symm.trans hr)
      obtain rfl | ⟨rfl, -⟩ := Line.alertNext_inr he <;> cases hw

/-- Only the last FSK cell of a CID queues CID SENT (R132). -/
theorem Line.renderStep_cidSent_iff {x : Context} : (L.renderStep tones programs v x).2.head? = some .cidSent ↔
    (∃ f, x.kind = .onHookCid f ∧ ((L.fskOf f).after true L.cidMessage 40).done true L.cidMessage = true) ∨
      ∃ e k tone f, x.kind = .offHookCid ⟨e, .send, k, tone, f⟩ ∧ ((L.fskOf f).after false L.cidMessage 40).done false L.cidMessage = true := by
  obtain ⟨st, m, k⟩ := x
  cases k with
  | program r run =>
    obtain ⟨hdone, hgoes⟩ := Line.renderStep_program_records (L := L) (tones := tones) (programs := programs) (v := v) (st := st) (m := m)
      (r := r) (run := run)
    refine ⟨fun h => ?_, fun h => ?_⟩
    · by_cases hn : run.next (programAt programs r) tones = none
      · rw [hdone hn] at h
        cases h
      · rw [hgoes hn] at h
        cases h
    · obtain ⟨_, hk, -⟩ | ⟨_, _, _, _, hk, -⟩ := h <;> cases hk
  | onHookCid f =>
    obtain ⟨hsent, hgoes⟩ := Line.renderStep_onHook_records (L := L) (tones := tones) (programs := programs) (v := v) (st := st) (m := m)
      (f := f)
    refine ⟨fun h => .inl ⟨f, rfl, ?_⟩, ?_⟩
    · by_contra hd
      rw [hgoes (Bool.eq_false_iff.2 hd)] at h
      cases h
    · rintro (⟨_, ⟨⟩, hd⟩ | ⟨_, _, _, _, hk, -⟩)
      · exact hsent hd
      · cases hk
  | offHookCid r =>
    refine ⟨fun h => .inr ?_, ?_⟩
    · obtain hn | ⟨e, he, hr⟩ := Line.renderStep_offHook_records (L := L) (tones := tones) (programs := programs) (v := v) (st := st) (m := m)
        (r := r)
      · rw [hn] at h
        cases h
      · rw [hr] at h
        obtain rfl | ⟨-, hp, hd⟩ := Line.alertNext_inr he
        · cases h
        · obtain ⟨e', ph, k, tone, f⟩ := r
          subst hp
          exact ⟨_, _, _, _, rfl, hd⟩
    · rintro (⟨_, hk, -⟩ | ⟨_, _, _, _, ⟨⟩, hd⟩)
      · cases hk
      · simp only [Line.renderStep, Line.alertNext_send_last hd, List.head?_cons]

end Step

theorem State.signalDone_iff (h : (s.line l).CidLaw) :
    (s.renderEvents l = [.signalDone .background] ∨ s.renderEvents l = [.signalDone .foreground]) ↔
      (s.line l).pendingMode = none ∧ ∃ v x r run n,
        (s.line l).activeContext = some (v, x) ∧ x.kind = .program r run ∧
        (run.cellsLeft = 1 ∨ run.cellsLeft = 0 ∧ ((programAt s.programs r).segments.getD run.segment ⟨none, 0⟩).duration ≤ 1) ∧
        (programAt s.programs r).segments.length ≤ run.segment + 1 ∧ run.repeats = some n ∧ n ≤ 1 := by
  have hlevel : (s.renderEvents l = [.signalDone .background] ∨ s.renderEvents l = [.signalDone .foreground]) ↔
      ∃ w, s.renderEvents l = [.signalDone w] :=
    ⟨fun h => h.elim (fun h => ⟨_, h⟩) fun h => ⟨_, h⟩, fun ⟨w, h⟩ => by cases w; exacts [.inl h, .inr h]⟩
  rw [hlevel]
  cases hp : (s.line l).pendingMode with
  | some p =>
    rw [State.renderEvents_mode h hp]
    exact ⟨fun ⟨_, h⟩ => (nomatch h), fun h => nomatch h.1⟩
  | none =>
    cases ha : (s.line l).activeContext with
    | none =>
      rw [State.renderEvents_none hp ha]
      exact ⟨fun ⟨_, h⟩ => (nomatch h), fun ⟨_, _, _, _, _, _, h, _⟩ => nomatch h⟩
    | some vx =>
      obtain ⟨v, x⟩ := vx
      rw [State.renderEvents_active hp ha, Line.renderStep_signalDone_iff]
      refine ⟨?_, ?_⟩
      · rintro ⟨r, run, hk, hn⟩
        obtain ⟨h1, hs, n, hr, hn⟩ := ProgramRun.next_none_iff.1 hn
        exact ⟨rfl, v, x, r, run, n, rfl, hk, h1, hs, hr, hn⟩
      · rintro ⟨-, v', x', r, run, n, hvx, hk, h1, hs, hr, hn⟩
        cases hvx
        exact ⟨r, run, hk, ProgramRun.next_none_iff.2 ⟨h1, hs, n, hr, hn⟩⟩

theorem State.cidSent_iff (h : (s.line l).CidLaw) : (s.renderEvents l).head? = some .cidSent ↔
    (s.line l).pendingMode = none ∧ ∃ v x, (s.line l).activeContext = some (v, x) ∧
      ((∃ f, x.kind = .onHookCid f ∧ (((s.line l).fskOf f).after true (s.line l).cidMessage 40).done true (s.line l).cidMessage = true) ∨
        ∃ e k tone f, x.kind = .offHookCid ⟨e, .send, k, tone, f⟩ ∧
          (((s.line l).fskOf f).after false (s.line l).cidMessage 40).done false (s.line l).cidMessage = true) := by
  cases hp : (s.line l).pendingMode with
  | some p =>
    rw [State.renderEvents_mode h hp]
    exact ⟨fun h => (nomatch h), fun h => nomatch h.1⟩
  | none =>
    cases ha : (s.line l).activeContext with
    | none =>
      rw [State.renderEvents_none hp ha]
      exact ⟨fun h => (nomatch h), fun ⟨_, _, _, h, _⟩ => nomatch h⟩
    | some vx =>
      obtain ⟨v, x⟩ := vx
      obtain ⟨hcid, hatt⟩ := (s.line l).prepared_sameCid (s.loadInput l) x
      have hmsg : ((s.line l).prepared (s.loadInput l) x).cidMessage = (s.line l).cidMessage := by rw [Line.cidMessage, hcid]; rfl
      have hfsk (f : Option Fsk) : ((s.line l).prepared (s.loadInput l) x).fskOf f = (s.line l).fskOf f := by rw [Line.fskOf, hatt]; rfl
      rw [State.renderEvents_active hp ha, Line.renderStep_cidSent_iff, hmsg]
      simp only [hfsk]
      exact ⟨fun h => ⟨trivial, v, x, rfl, h⟩, fun ⟨_, _, _, hvx, h⟩ => by cases hvx; exact h⟩

theorem State.willHearAnswer_iff (hl : s.resetLow = false) (hd : (s.line l).loadDue = true) : s.willHearAnswer l = true ↔
    (s.line l).detector.playoutAnswer = 59 ∧ ∃ t, exec (.load l) s = .next t ∧ (t.line l).detector.playoutAnswer = 60 := by
  rw [State.willHearAnswer, Bool.and_eq_true, beq_iff_eq, beq_iff_eq, exec_load hl hd]
  exact and_congr_right fun _ => ⟨fun h => ⟨_, rfl, h⟩, fun ⟨_, ht, h⟩ => by cases ht; exact h⟩

/-! ### The detector step, the hook sample and the ring step -/

theorem Line.willQualify_iff : L.willQualify = true ↔ L.mode = .voice ∧ L.detector.digits.phase = .seeking ∧
    ∃ d, L.closedHalf.cls = .dtmf d ∧ L.detector.digits.runDigit = some d ∧ L.detector.digits.runLength = 7 := by
  cases h : L.closedHalf.cls <;> simp [Line.willQualify, h, and_assoc]

theorem Line.willRelease_iff : L.willRelease = true ↔ L.mode = .voice ∧ ∃ d n taken,
    L.detector.digits.phase = .held d n 2 taken ∧ L.closedHalf.cls ≠ .dtmf d := by
  unfold Line.willRelease
  rw [Bool.and_eq_true, beq_iff_eq]
  refine and_congr_right fun _ => ?_
  split
  next d n taken hp =>
    rw [hp, bne_iff_ne]
    exact ⟨fun h => ⟨_, _, _, rfl, h⟩, fun ⟨_, _, _, hh, h⟩ => by cases hh; exact h⟩
  next hno => exact ⟨fun h => (nomatch h), fun ⟨d, n, taken, hp, _⟩ => absurd hp (hno d n taken)⟩

theorem Line.willCall_iff : L.willCall = true ↔ L.mode = .voice ∧ L.closedHalf.cls = .faxCalling ∧ L.detector.faxCalling = 99 := by
  simp [Line.willCall, completes]

theorem Line.willAnswer_iff : L.willAnswer = true ↔ L.mode = .voice ∧ L.closedHalf.cls = .faxAnswer ∧ L.detector.captureAnswer = 59 := by
  simp [Line.willAnswer, completes]

theorem Line.willLift_iff : L.willLift = true ↔ L.hook.state = .onhook 3 ∧ L.hookPin = true := by simp [Line.willLift]

theorem Line.willDial_iff : L.willDial = true ↔ L.hook.state = .dialing 59 ∧ L.hookPin = true := by simp [Line.willDial]

theorem Line.willHangUp_iff : L.willHangUp = true ↔ ∃ ret, L.hook.state = .brk 180 ret ∧ L.hookPin = false := by
  cases h : L.hook.state <;> simp [Line.willHangUp, h]

theorem RingState.endsBurst_iff {r : RingState} : r.endsBurst = true ↔ ∃ begun remaining, r = .on begun remaining ∧ remaining ≤ 1 := by
  cases r <;> simp [RingState.endsBurst]

theorem RingState.beginsBurst_iff {r : RingState} : r.beginsBurst = true ↔ ∃ begun remaining, r = .off begun remaining ∧ remaining ≤ 1 := by
  cases r <;> simp [RingState.beginsBurst]

theorem RingState.beginsCid_iff {r : RingState} : r.beginsCid = true ↔
    ∃ begun remaining delay, r = .cidDelay begun remaining delay ∧ delay ≤ 1 := by
  cases r <;> simp [RingState.beginsCid]

/-- A row of the ring step. -/
theorem State.ring_row {P : State → Prop} [DecidablePred P] {c : Instr} {occurs : Prop}
    (hc : exec c s = s.take fun s => if P s then s.ringStep l else s) (hl : s.resetLow = false) (ho : occurs ↔ P s) :
    (occurs → (s.line l).ringDue = true → exec c s = .next (s.commitLine l (s.g - 1) (s.line l).takeRing)) ∧
      (¬occurs ∨ (s.line l).ringDue = false → exec c s = .next s) := by
  refine ⟨fun h hd => ?_, fun h => ?_⟩
  · rw [hc, ← State.ringStep_due hd]
    exact (State.next_high hl).trans (congrArg Host.Outcome.next (if_pos (ho.1 h)))
  · rw [hc]
    refine State.row_idle ?_
    obtain h | h := h
    · exact if_neg fun hp => h (ho.2 hp)
    · have hs : s.ringStep l = s := if_neg (by rw [h]; exact Bool.false_ne_true)
      rw [hs, ite_self]

/-- Settles O3: each row as a condition on its whole event. -/
theorem partEventsAreTheWholeEvent : Obligations.PartEventsAreTheWholeEvent := by
  intro s l hlaw hl
  have hnot {b : Bool} (h : b = false) : ¬b = true := by rw [h]; exact Bool.false_ne_true
  refine ⟨?load, ?detector, ?hook, ?ring, fun hd => ?_, fun hd => State.row_idle (if_neg (hnot hd)), fun hd => State.row_idle (if_neg (hnot hd)),
    fun hd => State.row_idle (if_neg (hnot hd))⟩
  case load =>
    rintro c occurs (⟨rfl, ho⟩ | ⟨rfl, ho⟩ | ⟨rfl, ho⟩ | ⟨rfl, ho⟩ | ⟨rfl, ho⟩ | ⟨rfl, ho⟩ | ⟨rfl, ho⟩ | ⟨rfl, hd, ho⟩)
    · exact State.part_row (P := fun s => s.willStarve l = true) (F := fun s => s.loadStep l) rfl rfl hl (ho.trans State.willStarve_iff.symm)
    · exact State.part_row (P := fun s => (s.line l).closesWindow = true) (F := fun s => s.loadStep l) rfl rfl hl (ho.trans Line.closesWindow_iff.symm)
    · exact State.part_row (P := fun s => s.renderEvents l = [.signalDone .background] ∨ s.renderEvents l = [.signalDone .foreground])
        (F := fun s => s.loadStep l) rfl rfl hl (ho.trans (State.signalDone_iff hlaw).symm)
    · exact State.part_row (P := fun s => s.alertAt l = some (.alert, 15)) (F := fun s => s.loadStep l) rfl rfl hl (ho.trans (State.alertAt_iff hlaw).symm)
    · exact State.part_row (P := fun s => s.alertAt l = some (.awaitAck, 31)) (F := fun s => s.loadStep l) rfl rfl hl (ho.trans (State.alertAt_iff hlaw).symm)
    · exact State.part_row (P := fun s => s.alertAt l = some (.settle, 9)) (F := fun s => s.loadStep l) rfl rfl hl (ho.trans (State.alertAt_iff hlaw).symm)
    · exact State.part_row (P := fun s => (s.renderEvents l).head? = some .cidSent) (F := fun s => s.loadStep l) rfl rfl hl (ho.trans (State.cidSent_iff hlaw).symm)
    · exact State.part_row (P := fun s => s.willHearAnswer l = true) (F := fun s => s.loadStep l) rfl rfl hl (ho.trans (State.willHearAnswer_iff hl hd).symm)
  case detector =>
    rintro c occurs (⟨rfl, ho⟩ | ⟨rfl, ho⟩ | ⟨rfl, ho⟩ | ⟨rfl, ho⟩)
    · exact State.part_row (P := fun s => (s.line l).willQualify = true) (F := fun s => s.detectorStep l) rfl rfl hl (ho.trans Line.willQualify_iff.symm)
    · exact State.part_row (P := fun s => (s.line l).willRelease = true) (F := fun s => s.detectorStep l) rfl rfl hl (ho.trans Line.willRelease_iff.symm)
    · exact State.part_row (P := fun s => (s.line l).willCall = true) (F := fun s => s.detectorStep l) rfl rfl hl (ho.trans Line.willCall_iff.symm)
    · exact State.part_row (P := fun s => (s.line l).willAnswer = true) (F := fun s => s.detectorStep l) rfl rfl hl (ho.trans Line.willAnswer_iff.symm)
  case hook =>
    rintro c occurs (⟨rfl, ho⟩ | ⟨rfl, ho⟩ | ⟨rfl, ho⟩)
    · exact State.part_row (P := fun s => (s.line l).willLift = true) (F := fun s => s.hookStep l) rfl rfl hl (ho.trans Line.willLift_iff.symm)
    · exact State.part_row (P := fun s => (s.line l).willHangUp = true) (F := fun s => s.hookStep l) rfl rfl hl (ho.trans Line.willHangUp_iff.symm)
    · exact State.part_row (P := fun s => (s.line l).willDial = true) (F := fun s => s.hookStep l) rfl rfl hl (ho.trans Line.willDial_iff.symm)
  case ring =>
    rintro c occurs (⟨rfl, ho⟩ | ⟨rfl, ho⟩ | ⟨rfl, ho⟩)
    · exact State.ring_row (P := fun s => (s.line l).ring.state.endsBurst = true) rfl hl (ho.trans RingState.endsBurst_iff.symm)
    · exact State.ring_row (P := fun s => (s.line l).ring.state.beginsBurst = true) rfl hl (ho.trans RingState.beginsBurst_iff.symm)
    · exact State.ring_row (P := fun s => (s.line l).ring.state.beginsCid = true) rfl hl (ho.trans RingState.beginsCid_iff.symm)
  have hload : s.loadStep l = s := if_neg (hnot hd)
  have row (P : State → Prop) [DecidablePred P] : s.take (fun s => if P s then s.loadStep l else s) = .next s :=
    State.row_idle (by rw [hload, ite_self])
  intro c hc
  simp only [loadRows, List.mem_cons, List.not_mem_nil, or_false] at hc
  obtain rfl | rfl | rfl | rfl | rfl | rfl | rfl | rfl | rfl := hc
  · exact State.row_idle (f := fun s => s.loadStep l) hload
  · exact row fun s => s.willStarve l = true
  · exact row fun s => (s.line l).closesWindow = true
  · exact row fun s => s.renderEvents l = [.signalDone .background] ∨ s.renderEvents l = [.signalDone .foreground]
  · exact row fun s => s.alertAt l = some (.alert, 15)
  · exact row fun s => s.alertAt l = some (.awaitAck, 31)
  · exact row fun s => s.alertAt l = some (.settle, 9)
  · exact row fun s => (s.renderEvents l).head? = some .cidSent
  · exact row fun s => s.willHearAnswer l = true

end Rows
end Sys2Proof.Machine
end

section
/-! The Timebase and the highway: boundaries, start boundaries, frames, and the works that a frame finds left over (R2 to R5, R9 to R11, R84,
R94, R153, R154). -/

namespace Sys2Proof.Machine

section Boundary

variable {s : State} {l : Fin 4} {L : Line}

/-! ### The boundary -/

theorem Line.closeCapture_closedHalf (L : Line) : L.closeCapture.closedHalf =
    ⟨L.fillingHalf.samples, L.fillingHalf.reference, classify L.fillingHalf.samples⟩ := by
  unfold Line.closeCapture Line.fillingHalf Line.closedHalf Line.setCapture
  cases L.filling <;> rfl

/-- What the boundary leaves of a started line (R3, R11, R94). -/
theorem Line.boundary_started (he : L.enabled = true) (hs : L.started = true) : ∃ N, N = L.boundary ∧
    N = { L with
      capFirst := N.capFirst, capSecond := N.capSecond, filling := L.filling.other, closedMark := L.mark, mark := false
      ring := { L.ring with state := N.ring.state }
      due := { L.due with capture := true, detector := true, hook := true, ring := N.due.ring } } ∧
    N.closedHalf = ⟨L.fillingHalf.samples, L.fillingHalf.reference, classify L.fillingHalf.samples⟩ ∧ N.fillingHalf.samples = [] ∧
    (L.ring.state.turns = true → N.ring = L.ring ∧ N.due.ring = true) ∧
    (L.ring.state.turns = false → N.ring = { L.ring with state := L.ring.state.counted } ∧ N.due.ring = L.due.ring) := by
  refine ⟨_, rfl, ?_⟩
  have hclosed := L.closeCapture_closedHalf
  have hfilling : L.closeCapture.fillingHalf.samples = [] := congrArg CaptureHalf.samples L.closeCapture_halves.1
  obtain ⟨_, _, hc⟩ := L.closeCapture_frame
  rw [Line.boundary, if_pos he, if_pos hs]
  rw [hc] at hclosed hfilling ⊢
  rw [Line.boundaryRing_eq]
  cases ht : L.ring.state.turns with
  | true =>
    rw [if_pos (show true = true from rfl)]
    exact ⟨rfl, hclosed, hfilling, fun _ => ⟨rfl, rfl⟩, nofun⟩
  | false =>
    rw [if_neg Bool.false_ne_true]
    exact ⟨rfl, hclosed, hfilling, nofun, fun _ => ⟨rfl, rfl⟩⟩

theorem Line.boundary_disabled (he : L.enabled = false) : L.boundary = L := if_neg (by rw [he]; exact Bool.false_ne_true)

theorem Line.boundary_unstarted (he : L.enabled = true) (hs : L.started = false) :
    L.boundary = { L with due := { L.due with start := true } } :=
  (if_pos he).trans (if_neg (by rw [hs]; exact Bool.false_ne_true))

theorem RingState.turns_on (begun remaining : Nat) : (RingState.on begun remaining).turns = decide (remaining ≤ 1) := by
  simp [RingState.turns, RingState.endsBurst, RingState.beginsBurst, RingState.beginsCid]

theorem RingState.turns_off (begun remaining : Nat) : (RingState.off begun remaining).turns = decide (remaining ≤ 1) := by
  simp [RingState.turns, RingState.endsBurst, RingState.beginsBurst, RingState.beginsCid]

theorem RingState.turns_cidDelay (begun remaining delay : Nat) : (RingState.cidDelay begun remaining delay).turns = decide (delay ≤ 1) := by
  simp [RingState.turns, RingState.endsBurst, RingState.beginsBurst, RingState.beginsCid]

/-- Settles O5: what each kind of line takes of the boundary, and the start boundary by its definition. -/
theorem timebaseStartsAndAdvances : Obligations.TimebaseStartsAndAdvances := by
  refine ⟨fun s hs => ⟨?_, fun hr => ?_⟩, fun s hl => ⟨fun hr hf => ?_, fun h => ?_⟩, fun s l hl he hs hd => ?_⟩
  · show execStartTimebase s = _
    unfold execStartTimebase
    rw [hs.takeControl]
  · show execStartTimebase s = _
    unfold execStartTimebase
    rw [hs.takeControl, ← hr]
  · have hdue : s.boundaryDue = true := by simp [State.boundaryDue, hr, hf]
    refine ⟨s.boundary, (State.next_high hl).trans (congrArg Host.Outcome.next (if_pos hdue)), rfl, fun l => ?_⟩
    rw [State.line_boundary]
    refine ⟨Line.boundary_disabled, Line.boundary_unstarted, fun he hs => ?_⟩
    obtain ⟨N, hN, hline, hclosed, hfilling, hturns, hcounts⟩ := Line.boundary_started he hs
    rw [← hN]
    refine ⟨hline, hclosed, hfilling, fun h => ?_, fun begun remaining h => ⟨fun h2 => ?_, fun h1 => ?_⟩,
      fun begun remaining h => ⟨fun h2 => ?_, fun h1 => ?_⟩, fun begun remaining delay h => ⟨fun h2 => ?_, fun h1 => ?_⟩,
      fun begun remaining h => ?_⟩
    · obtain ⟨hring, hx⟩ := hcounts (by rw [h]; rfl)
      refine ⟨hring.trans ?_, hx⟩
      rw [h]
      show { (s.line l).ring with state := RingState.idle } = _
      rw [← h]
    · rw [(hcounts (by rw [h, RingState.turns_on]; exact decide_eq_false (by omega))).1, h]
      rfl
    · exact hturns (by rw [h, RingState.turns_on]; exact decide_eq_true h1)
    · rw [(hcounts (by rw [h, RingState.turns_off]; exact decide_eq_false (by omega))).1, h]
      rfl
    · exact hturns (by rw [h, RingState.turns_off]; exact decide_eq_true h1)
    · rw [(hcounts (by rw [h, RingState.turns_cidDelay]; exact decide_eq_false (by omega))).1, h]
      rfl
    · exact hturns (by rw [h, RingState.turns_cidDelay]; exact decide_eq_true h1)
    · rw [(hcounts (by rw [h]; rfl)).1, h]
      rfl
  · refine State.row_idle (if_neg ?_)
    simp only [State.boundaryDue, Bool.and_eq_true, beq_iff_eq, decide_eq_true_eq]
    obtain h | h := h
    · rw [h]
      exact fun h => nomatch h.1
    · omega
  · have hdue : (s.line l).startDue = true := by simp [Line.startDue, he, hs, hd]
    exact (State.next_high hl).trans (congrArg Host.Outcome.next (if_pos hdue))

/-! ### The works a frame finds left over (log entries 3 and 5) -/

theorem State.taking_cons {c : Instr} {cs : List Instr} {t : State} (h : exec c s = .next t) : State.taking (c :: cs) s = State.taking cs t := by
  simp only [State.taking, h]

theorem State.startStep_resetLow (s : State) (l : Fin 4) : (s.startStep l).resetLow = s.resetLow := by
  unfold State.startStep
  split <;> rfl

theorem State.captureStep_resetLow (s : State) (l : Fin 4) : (s.captureStep l).resetLow = s.resetLow := by
  obtain h | ⟨-, h | h⟩ := s.captureStep_eq l <;> rw [h] <;> rfl

theorem State.detectorStep_resetLow (s : State) (l : Fin 4) : (s.detectorStep l).resetLow = s.resetLow := by
  unfold State.detectorStep
  split <;> simp [State.commitLine]

theorem State.hookStep_resetLow (s : State) (l : Fin 4) : (s.hookStep l).resetLow = s.resetLow := by
  unfold State.hookStep
  split <;> simp [State.commitLine]

theorem State.ringStep_resetLow (s : State) (l : Fin 4) : (s.ringStep l).resetLow = s.resetLow := by
  unfold State.ringStep
  split <;> simp [State.commitLine]

theorem State.loadStep_resetLow (s : State) (l : Fin 4) : (s.loadStep l).resetLow = s.resetLow := by
  unfold State.loadStep State.loadLine
  split <;> simp [State.commitLine]

theorem State.settleLine_resetLow (s : State) (l : Fin 4) : (s.settleLine l).resetLow = s.resetLow := by
  rw [State.settleLine, State.loadStep_resetLow, State.ringStep_resetLow, State.hookStep_resetLow, State.detectorStep_resetLow,
    State.captureStep_resetLow, State.startStep_resetLow]

theorem State.boundaryStep_resetLow (s : State) : s.boundaryStep.resetLow = s.resetLow := by
  unfold State.boundaryStep
  split <;> rfl

theorem State.ringStep_idle (h : (s.line l).ringDue = false) : s.ringStep l = s := if_neg (by rw [h]; exact Bool.false_ne_true)

theorem State.countRing_idle (h : (s.line l).ringDue = false) : s.countRing l = s := if_neg (by rw [h]; exact Bool.false_ne_true)

/-- A ring step that turns nothing counts a cell. -/
theorem State.ringStep_counts (ht : (s.line l).ring.state.turns = false) : s.ringStep l = s.countRing l := by
  unfold State.ringStep State.countRing
  split
  · rw [Line.takeRing, Line.stepRing_counts (L := { s.line l with due := { (s.line l).due with ring := false } }) ht]
    rfl
  · rfl

/-- The rows of the ring step, and the count where none of them occurs, are the ring step. -/
theorem State.taking_ring (hl : s.resetLow = false) :
    (State.taking [.burstEnd l, .burstBegin l, .cidSend l] s).countRing l = s.ringStep l := by
  have hend {u : State} (hu : u.resetLow = false) :
      exec (.burstEnd l) u = .next (if (u.line l).ring.state.endsBurst then u.ringStep l else u) := State.next_high hu
  have hbegin {u : State} (hu : u.resetLow = false) :
      exec (.burstBegin l) u = .next (if (u.line l).ring.state.beginsBurst then u.ringStep l else u) := State.next_high hu
  have hsend {u : State} (hu : u.resetLow = false) :
      exec (.cidSend l) u = .next (if (u.line l).ring.state.beginsCid then u.ringStep l else u) := State.next_high hu
  have hT : (s.ringStep l).resetLow = false := (s.ringStep_resetLow l).trans hl
  have hTT : (s.ringStep l).ringStep l = s.ringStep l := State.ringStep_idle (s.ringStep_done l)
  have hTC : (s.ringStep l).countRing l = s.ringStep l := State.countRing_idle (s.ringStep_done l)
  rw [State.taking_cons (hend hl)]
  by_cases he : (s.line l).ring.state.endsBurst = true
  · rw [if_pos he, State.taking_cons (hbegin hT), hTT, ite_self, State.taking_cons (hsend hT), hTT, ite_self]
    exact hTC
  · rw [if_neg he, State.taking_cons (hbegin hl)]
    by_cases hb : (s.line l).ring.state.beginsBurst = true
    · rw [if_pos hb, State.taking_cons (hsend hT), hTT, ite_self]
      exact hTC
    · rw [if_neg hb, State.taking_cons (hsend hl)]
      by_cases hc : (s.line l).ring.state.beginsCid = true
      · rw [if_pos hc]
        exact hTC
      · rw [if_neg hc]
        refine (State.ringStep_counts (s := s) ?_).symm
        rw [RingState.turns, Bool.eq_false_iff.2 he, Bool.eq_false_iff.2 hb, Bool.eq_false_iff.2 hc]
        rfl

theorem State.takingLeft_eq (hl : s.resetLow = false) : s.takingLeft l = s.settleLine l := by
  have h1 : (s.startStep l).resetLow = false := (s.startStep_resetLow l).trans hl
  have h2 : ((s.startStep l).captureStep l).resetLow = false := (State.captureStep_resetLow _ l).trans h1
  have h3 : (((s.startStep l).captureStep l).detectorStep l).resetLow = false := (State.detectorStep_resetLow _ l).trans h2
  have h4 : ((((s.startStep l).captureStep l).detectorStep l).hookStep l).resetLow = false := (State.hookStep_resetLow _ l).trans h3
  have h5 : (((((s.startStep l).captureStep l).detectorStep l).hookStep l).ringStep l).resetLow = false :=
    (State.ringStep_resetLow _ l).trans h4
  have hstart : exec (.startBoundary l) s = .next (s.startStep l) := State.next_high hl
  have hcapture {u : State} (hu : u.resetLow = false) : exec (.captureStore l) u = .next (u.captureStep l) := State.next_high hu
  have hdetector {u : State} (hu : u.resetLow = false) : exec (.toneDetectorStep l) u = .next (u.detectorStep l) := State.next_high hu
  have hhook {u : State} (hu : u.resetLow = false) : exec (.hookSample l) u = .next (u.hookStep l) := State.next_high hu
  have hload {u : State} (hu : u.resetLow = false) : exec (.load l) u = .next (u.loadStep l) := State.next_high hu
  rw [State.takingLeft, State.taking_cons hstart, State.taking_cons (hcapture h1), State.taking_cons (hdetector h2),
    State.taking_cons (hhook h3), State.taking_ring h4, State.taking_cons (hload h5)]
  rfl

/-- What a frame takes first is the work left over, in its order. -/
theorem State.takingAll_eq (hl : s.resetLow = false) : s.takingAll = s.settle := by
  have h0 : s.boundaryStep.resetLow = false := s.boundaryStep_resetLow.trans hl
  have hb : s.taking [.globalCellBoundary] = s.boundaryStep :=
    State.taking_cons (show exec .globalCellBoundary s = .next s.boundaryStep from State.next_high hl)
  have h1 : (s.boundaryStep.settleLine 0).resetLow = false := (State.settleLine_resetLow _ 0).trans h0
  have h2 : ((s.boundaryStep.settleLine 0).settleLine 1).resetLow = false := (State.settleLine_resetLow _ 1).trans h1
  have h3 : (((s.boundaryStep.settleLine 0).settleLine 1).settleLine 2).resetLow = false := (State.settleLine_resetLow _ 2).trans h2
  rw [State.takingAll, State.settle, hb]
  simp only [four, List.foldl_cons, List.foldl_nil]
  rw [State.takingLeft_eq h0, State.takingLeft_eq h1, State.takingLeft_eq h2, State.takingLeft_eq h3]

theorem State.settle_resetLow (s : State) : s.settle.resetLow = s.resetLow := by
  rw [State.settle]
  simp only [four, List.foldl_cons, List.foldl_nil, State.settleLine_resetLow, State.boundaryStep_resetLow]

theorem State.settleLine_idle (h : (s.line l).startDue = false ∧ (s.line l).captureDue = false ∧ (s.line l).detectorDue = false ∧
    (s.line l).hookDue = false ∧ (s.line l).ringDue = false ∧ (s.line l).loadDue = false) : s.settleLine l = s := by
  have hnot {b : Bool} (h : b = false) : ¬b = true := by rw [h]; exact Bool.false_ne_true
  obtain ⟨h1, h2, h3, h4, h5, h6⟩ := h
  have e1 : s.startStep l = s := if_neg (hnot h1)
  have e2 : s.captureStep l = s := if_neg (hnot h2)
  have e3 : s.detectorStep l = s := if_neg (hnot h3)
  have e4 : s.hookStep l = s := if_neg (hnot h4)
  have e6 : s.loadStep l = s := if_neg (hnot h6)
  rw [State.settleLine, e1, e2, e3, e4, State.ringStep_idle h5, e6]

/-- With nothing due a frame has nothing to take first. -/
theorem State.settle_idle (h : s.NothingDue) : s.settle = s := by
  have hb : s.boundaryStep = s := if_neg (by rw [h.1]; exact Bool.false_ne_true)
  rw [State.settle, hb]
  simp only [four, List.foldl_cons, List.foldl_nil, State.settleLine_idle (h.2 _)]

/-! ### The frame (R4, R5, R11, R84) -/

theorem exec_highwayFrame {hrx : BitVec 256} {hook : Four Bool} (hl : s.resetLow = false) (hr : s.timebase = .running) :
    exec (.highwayFrame hrx hook) s = .next (s.settle.frameStep (hrxSamples hrx) hook) :=
  (State.next_high hl).trans (congrArg Host.Outcome.next (if_pos hr))

theorem hrxSamples_get (hrx : BitVec 256) (l : Fin 4) : (hrxSamples hrx).get l = hrxSample hrx l := by
  fin_cases l <;> rfl

theorem hrxSample_getMsbD (hrx : BitVec 256) (l : Fin 4) {i : Nat} (hi : i < 16) :
    (hrxSample hrx l).getMsbD i = hrx.getMsbD (16 * l.val + i) := by
  have hl := l.isLt
  rw [hrxSample, BitVec.getMsbD_eq_getLsbD, BitVec.getMsbD_eq_getLsbD, BitVec.getLsbD_extractLsb']
  simp only [show i < 16 from hi, show 16 * l.val + i < 256 by omega, show 16 - 1 - i < 16 by omega, decide_true, Bool.true_and]
  congr 1
  omega

theorem hrxSamples_congr {hrx hrx' : BitVec 256} (h : ∀ i, i < 64 → hrx'.getMsbD i = hrx.getMsbD i) : hrxSamples hrx' = hrxSamples hrx := by
  refine Four.ext_get fun l => ?_
  have hl := l.isLt
  rw [hrxSamples_get, hrxSamples_get]
  refine BitVec.eq_of_getMsbD_eq fun i hi => ?_
  rw [hrxSample_getMsbD hrx' l hi, hrxSample_getMsbD hrx l hi, h _ (by omega)]

theorem State.htxBit_slot (hr : s.timebase = .running) {i : Nat} (hi : i < 16) :
    s.htxBit (16 * l.val + i) = some ((s.htx.get l).getMsbD i) := by
  have hl := l.isLt
  have hd : (16 * l.val + i) / 16 = l.val := by omega
  have hm : (16 * l.val + i) % 16 = i := by omega
  rw [State.htxBit, if_pos hr, dif_pos (by omega), hm]
  congr 2
  exact congrArg s.htx.get (Fin.ext hd)

theorem State.htxBit_beyond {i : Nat} (hi : 64 ≤ i) : s.htxBit i = none := by
  rw [State.htxBit]
  split
  · exact dif_neg (by omega)
  · rfl

theorem Line.receive_reference (L : Line) (x : Sample) : (L.receive x).fillingHalf.reference =
    if L.fillingHalf.samples.isEmpty then L.playingHalf.positionAt L.sent else L.fillingHalf.reference := by
  unfold Line.receive Line.fillingHalf Line.setCapture
  cases L.filling <;> rfl

theorem PlayHalf.length_le_iff (h : PlayHalf) (n : Nat) : h.length ≤ n + 1 ↔ 40 + h.slip ≤ n + 1 := by
  unfold PlayHalf.length
  omega

theorem Line.send_turns (h : 40 + L.playingHalf.slip ≤ L.sent + 1) :
    L.send = { L with playing := L.playing.other, sent := 0, due := { L.due with load := true } } :=
  if_pos ((PlayHalf.length_le_iff _ _).2 h)

theorem Line.send_stays (h : ¬40 + L.playingHalf.slip ≤ L.sent + 1) : L.send = { L with sent := L.sent + 1 } :=
  if_neg fun hle => h ((PlayHalf.length_le_iff _ _).1 hle)

/-- The index of the sample sent (R84). -/
theorem PlayHalf.index_eq {h : PlayHalf} {k n : Nat}
    (hn : (h.slip = 0 ∧ n = k) ∨ (h.slip = -1 ∧ n = k + 1) ∨ (h.slip = 1 ∧ n = min k 39)) : h.index k = n := by
  unfold PlayHalf.index
  obtain ⟨hs, rfl⟩ | ⟨hs, rfl⟩ | ⟨hs, rfl⟩ := hn
  · rw [if_neg (by omega), if_neg (by omega)]
  · rw [if_pos (by omega)]
  · rw [if_neg (by omega), if_pos (by omega)]

theorem Line.frame_idle (h : L.enabled = false ∨ L.started = false) (x : Sample) (pin : Bool) : L.frame x pin = { L with hookPin := pin } := by
  refine if_neg fun hb => ?_
  obtain h | h := h
  · exact absurd (h.symm.trans hb.1) Bool.false_ne_true
  · exact absurd (h.symm.trans hb.2) Bool.false_ne_true

/-- One frame of a started line: a sample received, one sent, and the mark of a signal in progress (R5, R11, R84, R94). -/
theorem Line.frame_started (he : L.enabled = true) (hs : L.started = true) (x : Sample) (pin : Bool) : ∃ N, N = L.frame x pin ∧
    N = { L with
      hookPin := pin, capFirst := N.capFirst, capSecond := N.capSecond, playing := N.playing, sent := N.sent
      mark := L.mark || L.signalling, due := { L.due with load := N.due.load } } ∧
    N.fillingHalf.samples = L.fillingHalf.samples ++ [x] ∧ N.closedHalf = L.closedHalf ∧
    N.fillingHalf.reference = (if L.fillingHalf.samples.isEmpty then L.playingHalf.positionAt L.sent else L.fillingHalf.reference) ∧
    (40 + L.playingHalf.slip ≤ L.sent + 1 → N.playing = L.playing.other ∧ N.sent = 0 ∧ N.due.load = true) ∧
    (L.sent + 1 < 40 + L.playingHalf.slip → N.playing = L.playing ∧ N.sent = L.sent + 1 ∧ N.due.load = L.due.load) := by
  refine ⟨_, rfl, ?_⟩
  obtain ⟨hsamples, hclosed⟩ := Line.receive_halves { L with hookPin := pin } x
  have href := Line.receive_reference { L with hookPin := pin } x
  obtain ⟨a, b, hr⟩ := Line.receive_frame { L with hookPin := pin } x
  have hframe : L.frame x pin = { (Line.receive { L with hookPin := pin } x).send with mark := L.mark || L.signalling } := if_pos ⟨he, hs⟩
  rw [hr] at hsamples hclosed href hframe
  rw [hframe]
  by_cases hsend : 40 + L.playingHalf.slip ≤ L.sent + 1
  · rw [Line.send_turns (L := { L with hookPin := pin, capFirst := a, capSecond := b }) hsend]
    exact ⟨rfl, hsamples, hclosed, href, fun _ => ⟨rfl, rfl, rfl⟩, fun h => absurd hsend (by omega)⟩
  · rw [Line.send_stays (L := { L with hookPin := pin, capFirst := a, capSecond := b }) hsend]
    exact ⟨rfl, hsamples, hclosed, href, fun h => absurd h hsend, fun _ => ⟨rfl, rfl, rfl⟩⟩

theorem Line.sends_started (he : L.enabled = true) (hs : L.started = true) : L.sends = L.playingHalf.sampleAt L.sent := if_pos ⟨he, hs⟩

theorem Line.sends_idle (h : L.enabled = false ∨ L.started = false) : L.sends = 0 := by
  refine if_neg fun hb => ?_
  obtain h | h := h
  · exact absurd (h.symm.trans hb.1) Bool.false_ne_true
  · exact absurd (h.symm.trans hb.2) Bool.false_ne_true

/-- Settles O6: the works left over by `takingAll_eq`, and the frame of each line. -/
theorem highwayFrameSendsAndCaptures : Obligations.HighwayFrameSendsAndCaptures := by
  intro s hrx hook hl
  refine ⟨fun hh => ?_, fun hrx' h => ?_, fun hr => ?_, fun hr hdue => ?_⟩
  · exact (State.next_high hl).trans (congrArg Host.Outcome.next (if_neg (by rw [hh]; exact nofun)))
  · show execHighwayFrame hrx' hook s = execHighwayFrame hrx hook s
    unfold execHighwayFrame
    rw [hrxSamples_congr h]
  · rw [State.takingAll_eq hl]
    have hr' : s.settle.timebase = .running := s.settle_timebase.trans hr
    refine ⟨s.settle_nothingDue, hr', ?_⟩
    rw [exec_highwayFrame hl hr, exec_highwayFrame (s.settle_resetLow.trans hl) hr', State.settle_idle s.settle_nothingDue]
  · refine ⟨s.frameStep (hrxSamples hrx) hook, by rw [exec_highwayFrame hl hr, State.settle_idle hdue], rfl,
      fun i => ⟨?_, State.htxBit_beyond⟩, fun l => ⟨fun i hi => State.htxBit_slot (s := s.frameStep _ _) hr hi, fun h => ?_, fun he hs => ?_⟩⟩
    · show (s.timebase == .running && i == 0) = true ↔ i = 0
      rw [hr]
      simp
    · rw [State.line_frameStep, Line.frame_idle h]
      exact ⟨(Four.get_map _ _ _).trans (Line.sends_idle h), rfl⟩
    · have hhtx : (s.frameStep (hrxSamples hrx) hook).htx.get l = (s.line l).playingHalf.sampleAt (s.line l).sent :=
        (Four.get_map _ _ _).trans (Line.sends_started he hs)
      have hload : (s.line l).due.load = false := by
        have := (hdue.2 l).2.2.2.2.2
        simpa [Line.loadDue, he, hs] using this
      rw [State.line_frameStep, hrxSamples_get, hhtx]
      obtain ⟨N, hN, hline, hsamples, hclosed, href, hturn, hstay⟩ := Line.frame_started he hs (hrxSample hrx l) (hook.get l)
      rw [← hN]
      refine ⟨hline, ⟨hrxSample hrx l, fun i hi => hrxSample_getMsbD hrx l hi, hsamples⟩, hclosed, fun hne => ?_, fun n hn => ⟨?_, fun hempty => ?_⟩,
        hturn, fun h => ?_⟩
      · rw [href, if_neg (by rw [List.isEmpty_iff]; exact hne)]
      · rw [PlayHalf.sampleAt, PlayHalf.index_eq hn]
      · rw [href, if_pos (List.isEmpty_iff.2 hempty), PlayHalf.positionAt, PlayHalf.index_eq hn]
      · obtain ⟨hp, hsent, hload'⟩ := hstay h
        exact ⟨hp, hsent, hload'.trans hload⟩

end Boundary
end Sys2Proof.Machine
end

section
/-! PROOF. The write of one line: which slot a cell meets, what it leaves there, and what is counted; COMMIT DEPOSIT and FILL CELLS for one
line as that write (O25, O26, O27). -/

namespace Sys2Proof.Machine

/-! ### Slots ahead of the horizon -/

/-- The store cell of the slot `k` places ahead of slot index `hs`. -/
def RingEntry.ahead (p : RingEntry) (hs k : Nat) : Nat := p.base + (hs + k) % p.len

theorem RingEntry.ahead_inj {p : RingEntry} {hs k k' : Nat} (hk : k < p.len) (hk' : k' < p.len) (h : p.ahead hs k = p.ahead hs k') :
    k = k' := by
  have hmod : hs + k ≡ hs + k' [MOD p.len] := Nat.add_left_cancel h
  exact (Nat.ModEq.add_left_cancel' hs hmod).eq_of_lt_of_lt hk hk'

theorem RingEntry.ahead_lt {p : RingEntry} (hlen : 0 < p.len) (hs k : Nat) : p.ahead hs k < p.base + p.len :=
  Nat.add_lt_add_left (Nat.mod_lt _ hlen) _

/-- Cell `i` of a write at distance `d0` lies within the ring. -/
def RingEntry.reaches (p : RingEntry) (d0 : Int) (i : Nat) : Bool := decide (0 ≤ d0 + 40 * i ∧ d0 + 40 * i < 40 * p.len)

theorem RingEntry.reaches_iff {p : RingEntry} {d0 : Int} {i : Nat} (hd : d0 % 40 = 0) :
    p.reaches d0 i = true ↔ ∃ k, k < p.len ∧ d0 / 40 + i = (k : Int) := by
  rw [RingEntry.reaches, decide_eq_true_iff]
  exact ⟨fun h => ⟨(d0 / 40 + i).toNat, by omega, by omega⟩, fun ⟨k, _, _⟩ => by omega⟩

/-! ### A cell at its slot -/

section Cell

variable {w : Write} {c : StoreCell}

theorem StoreCell.duplicates_eq : c.duplicates w = isDuplicate w c := by
  unfold StoreCell.duplicates isDuplicate StoreCell.filled
  cases c.slot.state <;> cases w.mix <;> rfl

theorem kinds_add_eq (k : Kinds) (x : WriteKind) : k.add x = kindsWith k x := by cases x <;> rfl

theorem slotAfter_duplicate (h : isDuplicate w c = true) (cell : List Sample) : slotAfter w cell c = c := by
  rw [isDuplicate, Bool.and_eq_true, Bool.and_eq_true, decide_eq_true_iff, decide_eq_true_iff] at h
  obtain ⟨⟨hfilled, hadd⟩, hholds⟩ := h
  rw [slotAfter, if_neg (by rw [hfilled]; decide), if_neg (by rw [hadd]; decide), if_pos hholds]

theorem slotAfter_mixed (h : isDuplicate w c = false) (cell : List Sample) : slotAfter w cell c = c.mixed w cell := by
  unfold slotAfter StoreCell.mixed StoreCell.filled
  unfold isDuplicate at h
  cases hst : c.slot.state with
  | empty => simp only [if_pos, kinds_add_eq, only]; rfl
  | filled =>
    cases hmix : w.mix with
    | replace => simp only [if_pos, kinds_add_eq, only]; rfl
    | add =>
      have hs : c.slot.sources.get w.source = false := by simpa [hst, hmix] using h
      simp only [hs, kinds_add_eq, addCells_eq]
      rfl

theorem slotWithout_eq (m : Fin 4) : slotWithout m c = c.dropSource m := by
  unfold slotWithout StoreCell.dropSource
  have hsets (f : Four Bool) (h : f.get m = true) : (f.set m false = Four.all false) ↔ f = (Four.all false).set m true := by
    constructor
    · intro hf
      rw [← hf, Four.set_set, ← h, Four.set_get]
    · intro hf
      rw [hf, Four.set_set]
      exact Four.ext_get fun i => by rw [Four.get_set]; split <;> simp
  cases h : c.slot.sources.get m with
  | false => rw [if_pos rfl, if_neg Bool.false_ne_true]
  | true =>
    rw [if_neg (by decide), if_pos rfl]
    simp only [hsets _ h]
    rfl

end Cell

/-! ### The cells of a write, one after another -/

section Placing

variable {L : Line} {p : RingEntry} {w : Write} {d0 : Int} {a : Store × Tally} {x : Nat × List Sample}

theorem Line.slotAt_ahead (hp : L.playRing = some p) (hd : d0 % 40 = 0) (i : Nat) :
    L.slotAt (d0 + 40 * i) = p.ahead L.hs (d0 / 40 + i).toNat := by
  have hk : (d0 + 40 * (i : Int)).toNat / 40 = (d0 / 40 + i).toNat := by omega
  rw [Line.slotAt, Line.lp_of_ring hp, Line.playBase_of_ring hp, hk, RingEntry.ahead]

theorem Line.placeCell_late (h : d0 + 40 * (x.1 : Int) < 0) : L.placeCell w d0 a x = (a.1, { a.2 with late := a.2.late + 1 }) := if_pos h

theorem Line.placeCell_early (hp : L.playRing = some p) (h : 40 * (p.len : Int) ≤ d0 + 40 * x.1) :
    L.placeCell w d0 a x = (a.1, { a.2 with early := a.2.early + 1 }) := by
  have hlp := Line.lp_of_ring hp
  exact (if_neg (by omega)).trans (if_pos (by omega))

theorem Line.placeCell_reached (hp : L.playRing = some p) (hd : d0 % 40 = 0) (h : p.reaches d0 x.1 = true) :
    L.placeCell w d0 a x =
      if isDuplicate w (a.1.read (p.ahead L.hs (d0 / 40 + x.1).toNat)) = true then (a.1, { a.2 with duplicate := a.2.duplicate + 1 })
      else (a.1.write (p.ahead L.hs (d0 / 40 + x.1).toNat) (slotAfter w x.2 (a.1.read (p.ahead L.hs (d0 / 40 + x.1).toNat))),
        { a.2 with written := a.2.written + 1 }) := by
  have hlp := Line.lp_of_ring hp
  rw [RingEntry.reaches, decide_eq_true_iff] at h
  have hcases : L.placeCell w d0 a x = _ := (if_neg (by omega)).trans (if_neg (by omega))
  rw [hcases, Line.slotAt_ahead hp hd, StoreCell.duplicates_eq]
  split
  · rfl
  · next hdup => rw [slotAfter_mixed (Bool.not_eq_true _ ▸ hdup)]

/-- What the cells `cs` of a write at distance `d0` make of a store and its counts `a`. -/
structure Line.Sorts (L : Line) (p : RingEntry) (w : Write) (d0 : Int) (cs : List (Nat × List Sample)) (a r : Store × Tally) : Prop where
  reached : ∀ x ∈ cs, p.reaches d0 x.1 = true →
    r.1.read (p.ahead L.hs (d0 / 40 + x.1).toNat) = slotAfter w x.2 (a.1.read (p.ahead L.hs (d0 / 40 + x.1).toNat))
  other : ∀ b, (∀ x ∈ cs, p.reaches d0 x.1 = true → b ≠ p.ahead L.hs (d0 / 40 + x.1).toNat) → r.1.read b = a.1.read b
  late : r.2.late = a.2.late + cs.countP fun x => decide (d0 + 40 * x.1 < 0)
  early : r.2.early = a.2.early + cs.countP fun x => decide (40 * (p.len : Int) ≤ d0 + 40 * x.1)
  duplicate : r.2.duplicate = a.2.duplicate +
    cs.countP fun x => p.reaches d0 x.1 && isDuplicate w (a.1.read (p.ahead L.hs (d0 / 40 + x.1).toNat))
  total : r.2.written + r.2.late + r.2.early + r.2.duplicate = a.2.written + a.2.late + a.2.early + a.2.duplicate + cs.length

theorem Line.sorts_one (hp : L.playRing = some p) (hfit : p.base + p.len ≤ 1024) (hlen : 0 < p.len) (hd : d0 % 40 = 0)
    (hw : a.1.wf = true) : L.Sorts p w d0 [x] a (L.placeCell w d0 a x) := by
  by_cases hlate : d0 + 40 * (x.1 : Int) < 0
  · have hr : p.reaches d0 x.1 = false := by rw [RingEntry.reaches, decide_eq_false_iff_not]; omega
    have he : ¬40 * (p.len : Int) ≤ d0 + 40 * x.1 := by omega
    rw [Line.placeCell_late hlate]
    constructor <;> simp [hr, hlate, he]
    omega
  by_cases hearly : 40 * (p.len : Int) ≤ d0 + 40 * x.1
  · have hr : p.reaches d0 x.1 = false := by rw [RingEntry.reaches, decide_eq_false_iff_not]; omega
    rw [Line.placeCell_early hp hearly]
    constructor <;> simp [hr, hlate, hearly]
    omega
  have hr : p.reaches d0 x.1 = true := by rw [RingEntry.reaches, decide_eq_true_iff]; omega
  rw [Line.placeCell_reached hp hd hr]
  have haddr := RingEntry.ahead_lt (p := p) hlen L.hs (d0 / 40 + x.1).toNat
  split
  · next hdup =>
    constructor <;> simp [hr, hlate, hearly, hdup, slotAfter_duplicate]
    omega
  · next hdup =>
    constructor <;> simp [hr, hlate, hearly, hdup, Store.read_write _ _ hw (show p.ahead L.hs (d0 / 40 + x.1).toNat < 1024 by omega)]
    · exact fun b hb hb' => absurd hb' hb
    · omega

/-- Cells of different numbers meet different slots, so what each meets is what stood there before the write. -/
theorem Line.sorts_foldl (hp : L.playRing = some p) (hfit : p.base + p.len ≤ 1024) (hlen : 0 < p.len) (hd : d0 % 40 = 0)
    (cs : List (Nat × List Sample)) : ∀ a : Store × Tally, a.1.wf = true → cs.Pairwise (fun x y => x.1 ≠ y.1) →
    L.Sorts p w d0 cs a (cs.foldl (L.placeCell w d0) a) := by
  induction cs with
  | nil => exact fun a _ _ => ⟨fun _ h => absurd h List.not_mem_nil, fun _ _ => rfl, rfl, rfl, rfl, rfl⟩
  | cons x cs ih =>
    intro a hw hdistinct
    obtain ⟨hx, hcs⟩ := List.pairwise_cons.mp hdistinct
    have hfirst := Line.sorts_one (w := w) (x := x) hp hfit hlen hd hw
    have hrest := ih (L.placeCell w d0 a x) (Store.wf_placeCell x hw) hcs
    have hapart (y : Nat × List Sample) (hy : y ∈ cs) (hyr : p.reaches d0 y.1 = true) (hxr : p.reaches d0 x.1 = true) :
        p.ahead L.hs (d0 / 40 + y.1).toNat ≠ p.ahead L.hs (d0 / 40 + x.1).toNat := fun h => by
      obtain ⟨i, hi, hxi⟩ := (RingEntry.reaches_iff hd).mp hxr
      obtain ⟨j, hj, hyj⟩ := (RingEntry.reaches_iff hd).mp hyr
      have hkey := RingEntry.ahead_inj (by omega) (by omega) h
      have := hx y hy
      omega
    have hmet (y : Nat × List Sample) (hy : y ∈ cs) (hyr : p.reaches d0 y.1 = true) :
        (L.placeCell w d0 a x).1.read (p.ahead L.hs (d0 / 40 + y.1).toNat) = a.1.read (p.ahead L.hs (d0 / 40 + y.1).toNat) := by
      refine hfirst.other _ fun z hz hzr => ?_
      rw [List.mem_singleton.mp hz] at hzr ⊢
      exact hapart y hy hyr hzr
    refine ⟨fun y hy hyr => ?_, fun b hb => ?_, ?_, ?_, ?_, ?_⟩
    · rcases List.mem_cons.mp hy with rfl | hy
      · rw [List.foldl_cons, hrest.other _ fun z hz hzr => (hapart z hz hzr hyr).symm]
        exact hfirst.reached _ (List.mem_singleton.mpr rfl) hyr
      · rw [List.foldl_cons, hrest.reached y hy hyr, hmet y hy hyr]
    · rw [List.foldl_cons, hrest.other b fun z hz => hb z (List.mem_cons_of_mem _ hz)]
      exact hfirst.other b fun z hz => hb z (List.mem_singleton.mp hz ▸ List.mem_cons_self)
    · rw [List.foldl_cons, hrest.late, hfirst.late, List.countP_cons, List.countP_cons, List.countP_nil]
      omega
    · rw [List.foldl_cons, hrest.early, hfirst.early, List.countP_cons, List.countP_cons, List.countP_nil]
      omega
    · have hcongr : (cs.countP fun y => p.reaches d0 y.1 &&
          isDuplicate w ((L.placeCell w d0 a x).1.read (p.ahead L.hs (d0 / 40 + y.1).toNat))) =
          cs.countP fun y => p.reaches d0 y.1 && isDuplicate w (a.1.read (p.ahead L.hs (d0 / 40 + y.1).toNat)) := by
        refine List.countP_congr fun y hy => ?_
        cases hyr : p.reaches d0 y.1 with
        | false => rfl
        | true => rw [hmet y hy hyr]
      rw [List.foldl_cons, hrest.duplicate, hcongr, hfirst.duplicate, List.countP_cons, List.countP_cons, List.countP_nil]
      omega
    · have htotal := hrest.total
      have hone := hfirst.total
      rw [List.length_singleton] at hone
      rw [List.foldl_cons, List.length_cons]
      omega

end Placing

/-! ### Anchoring -/

section Anchoring

variable {L : Line} {p : RingEntry} {w : Write} {o : Word32} {st : Store}

theorem Line.mustAnchor_iff : L.MustAnchor w ↔ L.anchorsAt w = true := by
  unfold Line.MustAnchor Line.anchorsAt
  cases L.anchors.get w.source <;> simp

/-- The source of the write has offset `o` once its anchoring is settled. -/
def Line.Settles (L : Line) (w : Write) (o : Word32) : Prop :=
  L.MustAnchor w ∧ o = L.horizon + BitVec.ofNat 32 (40 * L.depth) - w.time ∨ ¬L.MustAnchor w ∧ L.anchors.get w.source = .anchored o

theorem Line.settledAnchor_anchoring (h : L.MustAnchor w) (ho : L.Settles w o) : L.settledAnchor w =
    { L with
      anchors := L.anchors.set w.source (.anchored o)
      playout := if L.playout = .idle then .running else L.playout
      run := if L.playout = .idle then 0 else L.run } := by
  obtain ⟨_, rfl⟩ | ⟨hno, _⟩ := ho
  · exact if_pos (Line.mustAnchor_iff.mp h)
  · exact absurd h hno

theorem Line.settledAnchor_anchored (h : ¬L.MustAnchor w) : L.settledAnchor w = L :=
  if_neg (Line.mustAnchor_iff.not.mp h)

theorem Line.settledAnchor_frame (L : Line) (w : Write) : ∃ anchors playout run,
    L.settledAnchor w = { L with anchors := anchors, playout := playout, run := run } := by
  unfold Line.settledAnchor
  split
  · exact ⟨_, _, _, rfl⟩
  · exact ⟨_, _, _, rfl⟩

theorem Line.offset_settled (ho : L.Settles w o) : (L.settledAnchor w).offset w.source = o := by
  have hget : (L.settledAnchor w).anchors.get w.source = .anchored o := by
    by_cases h : L.MustAnchor w
    · rw [Line.settledAnchor_anchoring h ho]
      exact Four.get_set_same _ _ _
    · rw [Line.settledAnchor_anchored h]
      exact ho.elim (fun h' => absurd h'.1 h) And.right
  simp only [Line.offset, hget]

theorem Line.distance_settled (ho : L.Settles w o) : (L.settledAnchor w).distance w = (w.time + o - L.horizon).toInt := by
  rw [Line.distance, Line.offset_settled ho]
  obtain ⟨_, _, _, hframe⟩ := L.settledAnchor_frame w
  rw [hframe]

/-- An anchoring write places its first cell at the anchor depth. -/
theorem Line.distance_anchoring (h : L.MustAnchor w) (ho : L.Settles w o) (hdepth : L.depth ≤ 255) :
    (w.time + o - L.horizon).toInt = 40 * L.depth := by
  obtain ⟨_, rfl⟩ | ⟨hno, _⟩ := ho
  · have hsum : w.time + (L.horizon + BitVec.ofNat 32 (40 * L.depth) - w.time) - L.horizon = BitVec.ofNat 32 (40 * L.depth) := by
      generalize BitVec.ofNat 32 (40 * L.depth) = x
      generalize w.time = time, L.horizon = horizon
      bv_omega
    have hsmall : 40 * L.depth < 2 ^ 32 := by omega
    rw [hsum, BitVec.toInt_eq_toNat_cond, BitVec.toNat_ofNat, Nat.mod_eq_of_lt hsmall, if_pos (by omega)]
    omega
  · exact absurd h hno

theorem Store.wf_settledAnchor (hw : st.wf = true) : (st.settledAnchor L w).wf = true := by
  unfold Store.settledAnchor
  split
  · exact Store.wf_clearSource _ _ hw _
  · exact hw

theorem Store.settledAnchor_anchored (h : ¬L.MustAnchor w) : st.settledAnchor L w = st := if_neg (Line.mustAnchor_iff.not.mp h)

theorem Store.read_settled_anchoring (h : L.MustAnchor w) (hp : L.HasRing p) (hw : st.wf = true) (b : Nat) :
    (st.settledAnchor L w).read b = if p.base ≤ b ∧ b < p.base + p.len then slotWithout w.source (st.read b) else st.read b := by
  rw [Store.settledAnchor, if_pos (Line.mustAnchor_iff.mp h), Line.playBase_of_ring hp.1, Line.lp_of_ring hp.1,
    Store.read_clearSource _ _ _ hw _ hp.2, slotWithout_eq]

theorem Store.read_settled_ahead (h : L.MustAnchor w) (hp : L.HasRing p) (hw : st.wf = true) (hlen : 0 < p.len) (hs k : Nat) :
    (st.settledAnchor L w).read (p.ahead hs k) = slotWithout w.source (st.read (p.ahead hs k)) := by
  rw [Store.read_settled_anchoring h hp hw]
  exact if_pos ⟨Nat.le_add_right _ _, RingEntry.ahead_lt hlen hs k⟩

/-- Outside its ring an anchoring leaves the store as it is. -/
theorem Store.read_settled_outside (hp : L.HasRing p) (hw : st.wf = true) {b : Nat} (hb : b < p.base ∨ p.base + p.len ≤ b) :
    (st.settledAnchor L w).read b = st.read b := by
  by_cases h : L.MustAnchor w
  · rw [Store.read_settled_anchoring h hp hw]
    exact if_neg (by omega)
  · rw [Store.settledAnchor_anchored h]

end Anchoring

/-! ### The write of one line -/

section OneLine

variable {L : Line} {p : RingEntry} {w : Write} {o : Word32} {d0 : Int} {st : Store}

/-- The cells of a write have numbers of their own. -/
def Write.Distinct (w : Write) : Prop := w.cells.Pairwise fun x y => x.1 ≠ y.1

/-- The counts of an aligned write at distance `d0`. -/
def Line.counted (L : Line) (p : RingEntry) (w : Write) (d0 : Int) (st : Store) : Tally :=
  let late := w.cells.countP fun x => decide (d0 + 40 * x.1 < 0)
  let early := w.cells.countP fun x => decide (40 * (p.len : Int) ≤ d0 + 40 * x.1)
  let duplicate := w.cells.countP fun x => p.reaches d0 x.1 &&
    isDuplicate w ((st.settledAnchor L w).read (p.ahead L.hs (d0 / 40 + x.1).toNat))
  ⟨w.cells.length - late - early - duplicate, late, early, duplicate⟩

/-- The store `st'` is what an aligned write at distance `d0` makes of the store `st`. -/
structure Line.Mixes (L : Line) (p : RingEntry) (w : Write) (d0 : Int) (st st' : Store) : Prop where
  reached : ∀ x ∈ w.cells, p.reaches d0 x.1 = true → st'.read (p.ahead L.hs (d0 / 40 + x.1).toNat) =
    slotAfter w x.2 ((st.settledAnchor L w).read (p.ahead L.hs (d0 / 40 + x.1).toNat))
  other : ∀ b, (∀ x ∈ w.cells, p.reaches d0 x.1 = true → b ≠ p.ahead L.hs (d0 / 40 + x.1).toNat) →
    st'.read b = (st.settledAnchor L w).read b

/-- A write of one cell, in the ring, counts it as a duplicate or as written. -/
theorem Line.counted_single {x : Nat × List Sample} (hcells : w.cells = [x]) (hr : p.reaches d0 x.1 = true) {dup : Bool}
    (hdup : isDuplicate w ((st.settledAnchor L w).read (p.ahead L.hs (d0 / 40 + x.1).toNat)) = dup) :
    L.counted p w d0 st = if dup = true then ⟨0, 0, 0, 1⟩ else ⟨1, 0, 0, 0⟩ := by
  have hin := of_decide_eq_true hr
  have hlate : decide (d0 + 40 * (x.1 : Int) < 0) = false := decide_eq_false (by omega)
  have hearly : decide (40 * (p.len : Int) ≤ d0 + 40 * x.1) = false := decide_eq_false (by omega)
  simp only [Line.counted, hcells, List.countP_cons, List.countP_nil, hlate, hearly, hr, hdup]
  cases dup <;> rfl

theorem Line.write_off (he : L.enabled = false) : L.write w st = (L, st, ⟨.off, .zero, 0⟩) :=
  if_neg (by rw [he]; exact Bool.false_ne_true)

theorem Line.write_misaligned (he : L.enabled = true) (ho : L.Settles w o) (hd0 : d0 = (w.time + o - L.horizon).toInt)
    (hd : d0 % 40 ≠ 0) : L.write w st = (L.settledAnchor w, st.settledAnchor L w, ⟨.misaligned, .zero, margin d0⟩) := by
  subst hd0
  rw [← Line.distance_settled ho] at hd ⊢
  exact (if_pos he).trans (if_neg hd)

theorem Line.write_placed (he : L.enabled = true) (hd : (L.settledAnchor w).distance w % 40 = 0) : L.write w st =
    ((L.settledAnchor w).countWrite w ((L.settledAnchor w).distance w)
        ((L.settledAnchor w).placeCells w ((L.settledAnchor w).distance w) (st.settledAnchor L w)).2,
      ((L.settledAnchor w).placeCells w ((L.settledAnchor w).distance w) (st.settledAnchor L w)).1,
      ⟨.done, ((L.settledAnchor w).placeCells w ((L.settledAnchor w).distance w) (st.settledAnchor L w)).2,
        margin ((L.settledAnchor w).distance w)⟩) :=
  (if_pos he).trans (if_pos hd)

theorem Line.write_aligned (he : L.enabled = true) (ho : L.Settles w o) (hd0 : d0 = (w.time + o - L.horizon).toInt) (hd : d0 % 40 = 0)
    (hp : L.HasRing p) (hlen : 0 < p.len) (hw : st.wf = true) (hcells : w.Distinct) : ∃ st', L.Mixes p w d0 st st' ∧
    L.write w st = ((L.settledAnchor w).countWrite w d0 (L.counted p w d0 st), st', ⟨.done, L.counted p w d0 st, margin d0⟩) := by
  obtain ⟨_, _, _, hframe⟩ := L.settledAnchor_frame w
  have hring : (L.settledAnchor w).playRing = some p := by rw [hframe]; exact hp.1
  have hhs : (L.settledAnchor w).hs = L.hs := by rw [hframe]
  have hsorts := Line.sorts_foldl (w := w) hring hp.2 hlen hd w.cells (st.settledAnchor L w, .zero) (Store.wf_settledAnchor hw) hcells
  rw [← Line.distance_settled ho] at hd0
  have hwrite := Line.write_placed (st := st) he (by rwa [← hd0])
  rw [← hd0] at hwrite
  change (L.settledAnchor w).Sorts p w d0 w.cells _ ((L.settledAnchor w).placeCells w d0 (st.settledAnchor L w)) at hsorts
  generalize (L.settledAnchor w).placeCells w d0 (st.settledAnchor L w) = r at hsorts hwrite
  have hcounts : r.2 = L.counted p w d0 st := by
    have hzero (n : Nat) : 0 + n = n := Nat.zero_add n
    have hlate : r.2.late = _ := hsorts.late.trans (hzero _)
    have hearly : r.2.early = _ := hsorts.early.trans (hzero _)
    have hduplicate : r.2.duplicate = _ := hsorts.duplicate.trans (hzero _)
    have htotal : r.2.written + r.2.late + r.2.early + r.2.duplicate = w.cells.length := hsorts.total.trans (hzero _)
    have hwritten : r.2.written = w.cells.length - r.2.late - r.2.early - r.2.duplicate := by omega
    rw [hhs] at hduplicate
    rw [hlate, hearly, hduplicate] at hwritten
    change (⟨r.2.written, r.2.late, r.2.early, r.2.duplicate⟩ : Tally) = _
    rw [hwritten, hlate, hearly, hduplicate]
    rfl
  refine ⟨r.1, ⟨fun x hx hr => ?_, fun b hb => ?_⟩, by rw [← hcounts]; exact hwrite⟩
  · rw [← hhs]
    exact hsorts.reached x hx hr
  · rw [← hhs] at hb
    exact hsorts.other b hb

end OneLine

/-! ### COMMIT DEPOSIT and FILL CELLS for one line -/

section Sending

variable {s : State} {l : Fin 4} {w : Write} {c : Instr}

theorem maskLines_one : maskLines ((Four.all false).set l true) = [l] := by
  revert l
  decide

theorem maskOf_one {mask : Byte} (h : mask.toNat = 2 ^ l.val) : maskOf mask = (Four.all false).set l true := by
  have hmask : mask = BitVec.ofNat 8 (2 ^ l.val) := by rw [← h, BitVec.ofNat_toNat, BitVec.setWidth_eq]
  subst hmask
  revert l
  decide

theorem fillBits_ne_nil {control : Byte} (h : control.toNat % 16 ≠ 0) : fillBits control ≠ [] := fun hnil => by
  have hclear (i : Nat) (hi : i < 4) : control.toNat / 2 ^ i % 2 = 0 := by
    have hbit := List.filter_eq_nil_iff.mp hnil i (List.mem_range.mpr hi)
    rw [BitVec.getLsbD, Nat.testBit_eq_decide_div_mod_eq, decide_eq_true_iff] at hbit
    omega
  have h0 := hclear 0 (by decide)
  have h1 := hclear 1 (by decide)
  have h2 := hclear 2 (by decide)
  have h3 := hclear 3 (by decide)
  omega

theorem State.beginCommit_complete {d : Deposit} (hd : s.deposit = some d) (h : d.Complete) :
    s.beginCommit = s.beginWrites d.write (maskLines d.mask) := by
  obtain ⟨hbroken, hlength, -, -⟩ := h
  have hroom : ¬d.samples.length < d.room := by rw [hlength]; exact Nat.lt_irrefl _
  simp only [State.beginCommit, hd, hbroken, if_neg hroom]
  rfl

theorem State.beginFill_taken {mask source control : Byte} {m : Fin 4} (h1 : 1 ≤ mask.toNat) (h15 : mask.toNat ≤ 15)
    (hsource : source.toNat = m.val) (hcontrol : control.toNat % 16 ≠ 0) (time : Word32) (gain : Byte) :
    s.beginFill mask source time control gain = s.beginWrites (fillWrite s.fillPattern m time control gain) (maskLines (maskOf mask)) := by
  simp only [State.beginFill, maskOk_iff.mpr ⟨h1, h15⟩, index4_of_eq hsource, if_neg (fillBits_ne_nil hcontrol), if_true]

theorem State.Hears.fillCells (hm : s.Hears .media) (mask source : Byte) (time : Word32) (control gain : Byte) (n : Nat) :
    exec (.fillCells mask source time control gain n) s = .next ((s.beginFill mask source time control gain).advance n) := by
  show execFillCells mask source time control gain s n = _
  unfold execFillCells
  rw [State.goesOn_idle (hm.2.2 rfl), if_neg Bool.false_ne_true, hm.takeMedia]

/-- The last line of a write is written, reported in its place, and completes the response. -/
theorem State.advance_last {report : List Byte} (hj : s.job = some ⟨w, [l], report⟩) (n : Nat) :
    s.advance (n + 1) = (s.writeLine w l).endWrites w (report ++ (s.reportLine w l).bytes w) := by
  simp [State.advance, hj, State.writeLines, State.reportLines]

/-- A whole commit or fill for one line is the write of that line. -/
theorem State.Sends.exec (h : s.Sends c l w) (hm : s.Hears .media) :
    exec c s = .next ((s.writeLine w l).endWrites w ((s.reportLine w l).bytes w)) := by
  have hone {n : Nat} : (s.beginWrites w [l]).advance (n + 1) = (s.writeLine w l).endWrites w ((s.reportLine w l).bytes w) :=
    State.advance_last (s := s.beginWrites w [l]) (report := []) rfl n
  obtain ⟨d, n, rfl, hd, hmask, hcomplete, rfl⟩ | ⟨mask, source, control, gain, n, m, rfl, hmask, hsource, hcontrol, hw⟩ := h
  · rw [hm.commitDeposit, State.beginCommit_complete hd hcomplete, hmask, maskLines_one]
    exact congrArg Host.Outcome.next hone
  · have hle : 2 ^ l.val ≤ 2 ^ 3 := Nat.pow_le_pow_right (by decide) (by omega)
    have hpos : 0 < 2 ^ l.val := Nat.two_pow_pos _
    rw [hm.fillCells, State.beginFill_taken (by omega) (by omega) hsource hcontrol, maskOf_one hmask, maskLines_one]
    rw [hw] at hone ⊢
    exact congrArg Host.Outcome.next hone

theorem State.Sends.distinct (h : s.Sends c l w) : w.Distinct := by
  obtain ⟨d, n, -, -, -, -, rfl⟩ | ⟨mask, source, control, gain, n, m, -, -, -, -, hw⟩ := h
  · exact List.pairwise_map.mpr List.nodup_range
  · rw [Write.Distinct, hw]
    exact List.pairwise_map.mpr (List.nodup_range.filter _)

/-- The state when line `l` alone is written: its record, the store, the deposit of a commit closed, and the response. -/
def State.wrote (s : State) (w : Write) (l : Fin 4) (L : Line) (st : Store) (bytes : List Byte) : State :=
  { s with
    lines := s.lines.set l L, store := st, deposit := if w.kind = .media then none else s.deposit
    mLink := { s.mLink with response := 0 :: bytes } }

theorem State.wrote_line (L : Line) (st : Store) (bytes : List Byte) : (s.wrote w l L st bytes).line l = L := Four.get_set_same _ _ _

theorem State.wrote_others (L : Line) (st : Store) (bytes : List Byte) : s.OtherLinesKept (s.wrote w l L st bytes) l :=
  fun _ hk => Four.get_set_ne _ _ hk

theorem State.Sends.wrote (h : s.Sends c l w) (hm : s.Hears .media) {L : Line} {st : Store} {r : WriteReport}
    (hwrite : (s.line l).write w s.store = (L, st, r)) : Machine.exec c s = .next (s.wrote w l L st (r.bytes w)) := by
  have hreport : s.reportLine w l = r := by rw [State.reportLine, hwrite]
  have hline : s.writeLine w l = (s.setLine l L).setStore st := by rw [State.writeLine, hwrite]
  have hjob : s.job = none := hm.2.2 rfl
  rw [h.exec hm, hreport, hline]
  unfold State.wrote State.endWrites State.answer State.setLink State.setStore State.setLine
  rw [hjob]
  cases w.kind <;> rfl

end Sending

/-! ### Counters, window and response of a write -/

section Counting

variable {L : Line} {w : Write} {d0 : Int} {t : Tally}

theorem margin_eq (x : Int) : margin x = max (-32768) (min 32767 x) := by
  unfold margin clampInt
  split
  · omega
  · split <;> omega

theorem Line.countWrite_stats (L : Line) (w : Write) (d0 : Int) (t : Tally) : ((L.settledAnchor w).countWrite w d0 t).stats =
    { L.stats with
      late := min 65535 (L.stats.late + t.late), early := min 65535 (L.stats.early + t.early)
      duplicate := min 65535 (L.stats.duplicate + t.duplicate) } := by
  obtain ⟨_, _, _, hframe⟩ := L.settledAnchor_frame w
  rw [hframe, Line.countWrite]
  dsimp only
  rw [countBy_eq_min, countBy_eq_min, countBy_eq_min]

theorem Line.countWrite_window_kept (h : w.kind = .fill ∨ w.source ≠ L.config.lead) :
    ((L.settledAnchor w).countWrite w d0 t).window = L.window := by
  obtain ⟨_, _, _, hframe⟩ := L.settledAnchor_frame w
  rw [hframe]
  refine if_neg fun ⟨hkind, hlead⟩ => ?_
  rcases h with h | h
  · rw [h] at hkind
    exact absurd hkind (by decide)
  · exact h hlead

theorem Line.countWrite_window_lead (hkind : w.kind = .media) (hlead : w.source = L.config.lead) :
    ((L.settledAnchor w).countWrite w d0 t).window = { L.window with
      minimum := some ((L.window.minimum.map fun x => min x (margin d0)).getD (margin d0)) } := by
  obtain ⟨_, _, _, hframe⟩ := L.settledAnchor_frame w
  rw [hframe]
  refine (if_pos ⟨hkind, hlead⟩).trans ?_
  dsimp only
  cases L.window.minimum <;> rfl

theorem Line.countWrite_fill (h : w.kind = .fill) : L.countWrite w d0 t = { L with stats := { L.stats with
    late := min 65535 (L.stats.late + t.late), early := min 65535 (L.stats.early + t.early)
    duplicate := min 65535 (L.stats.duplicate + t.duplicate) } } := by
  have hwindow : L.gather w d0 = L.window := if_neg fun hlead => by rw [h] at hlead; exact absurd hlead.1 (by decide)
  rw [Line.countWrite, hwindow, countBy_eq_min, countBy_eq_min, countBy_eq_min]

/-- Counters in range stay as they are when nothing late, early or duplicate is counted. -/
theorem Stats.InRange.min_add_zero {x : Stats} (h : x.InRange) : { x with
    late := min 65535 (x.late + 0), early := min 65535 (x.early + 0), duplicate := min 65535 (x.duplicate + 0) } = x := by
  obtain ⟨hlate, hearly, hduplicate, -⟩ := h
  rw [Nat.add_zero, Nat.add_zero, Nat.add_zero, min_eq_right hlate, min_eq_right hearly, min_eq_right hduplicate]

theorem WriteReport.bytes_done (m : Int) : (⟨.done, t, m⟩ : WriteReport).bytes w =
    if w.kind = .media then
      [outcomeByte w.cells.length t.late t.early, BitVec.ofNat 8 t.late, BitVec.ofNat 8 t.early, BitVec.ofNat 8 t.duplicate] ++ int2 m
    else [0, BitVec.ofNat 8 t.written, BitVec.ofNat 8 t.late, BitVec.ofNat 8 t.early, BitVec.ofNat 8 t.duplicate] := by
  unfold WriteReport.bytes
  cases w.kind <;> rfl

theorem WriteReport.bytes_misaligned (m : Int) : (⟨.misaligned, .zero, m⟩ : WriteReport).bytes w =
    if w.kind = .media then [5, 0, 0, 0] ++ int2 m else [5, 0, 0, 0, 0] := by
  unfold WriteReport.bytes
  cases w.kind <;> rfl

theorem WriteReport.bytes_off : (⟨.off, .zero, 0⟩ : WriteReport).bytes w =
    if w.kind = .media then [6, 0, 0, 0, 0, 0] else [6, 0, 0, 0, 0] := by
  unfold WriteReport.bytes
  cases w.kind <;> rfl

end Counting

/-! ### The obligations -/

section Settled

variable {s : State} {l : Fin 4} {w : Write} {c : Instr} {p : RingEntry} {o : Word32} {d0 : Int}

theorem State.Sends.aligned (h : s.Sends c l w) (hm : s.Hears .media) (hst : s.StoreLaw) (he : (s.line l).enabled = true)
    (ho : (s.line l).Settles w o) (hd0 : d0 = (w.time + o - (s.line l).horizon).toInt) (hd : d0 % 40 = 0) (hp : (s.line l).HasRing p)
    (hlen : 0 < p.len) : ∃ st', (s.line l).Mixes p w d0 s.store st' ∧ Machine.exec c s = .next (s.wrote w l
      (((s.line l).settledAnchor w).countWrite w d0 ((s.line l).counted p w d0 s.store)) st'
      ((⟨.done, (s.line l).counted p w d0 s.store, margin d0⟩ : WriteReport).bytes w)) := by
  obtain ⟨st', hmixes, hwrite⟩ := Line.write_aligned he ho hd0 hd hp hlen hst h.distinct
  exact ⟨st', hmixes, h.wrote hm hwrite⟩

theorem State.wrote_same (bytes : List Byte) : s.wrote w l (s.line l) s.store bytes =
    { s with deposit := if w.kind = .media then none else s.deposit, mLink := { s.mLink with response := 0 :: bytes } } := by
  rw [State.wrote, State.line, Four.set_get]

/-- Settles O27. -/
theorem writeSortsAndMixesCells : Obligations.WriteSortsAndMixesCells := by
  intro s c l w hm hst h
  refine ⟨fun he => ?_, fun p o d0 mg he hp h8 _ _ ho hd0 hmg => ⟨fun ha hdepth => ?_, fun ha hd => ?_, ?_⟩⟩
  · rw [h.wrote hm (Line.write_off he), State.wrote_same, WriteReport.bytes_off]
    cases w.kind <;> rfl
  · rw [hd0]
    exact Line.distance_anchoring ha ho hdepth
  · rw [h.wrote hm (Line.write_misaligned he ho hd0 hd), Line.settledAnchor_anchored ha, Store.settledAnchor_anchored ha, State.wrote_same,
      WriteReport.bytes_misaligned, margin_eq, ← hmg]
    cases w.kind <;> rfl
  intro before inRing late early duplicate hd hanchoring hanchored hreaches hlate hearly hduplicate
  have hlen : 0 < p.len := by omega
  obtain ⟨st', hmixes, hexec⟩ := h.aligned hm hst he ho hd0 hd hp hlen
  have hbefore (k : Nat) : (s.store.settledAnchor (s.line l) w).read (p.ahead (s.line l).hs k) = before k := by
    by_cases ha : (s.line l).MustAnchor w
    · rw [hanchoring ha, Store.read_settled_ahead ha hp hst hlen]
      rfl
    · rw [hanchored ha, Store.settledAnchor_anchored ha]
      rfl
  have hinRing : inRing = p.reaches d0 := funext hreaches
  subst hinRing
  have hcounted : (s.line l).counted p w d0 s.store = ⟨w.cells.length - late - early - duplicate, late, early, duplicate⟩ := by
    simp only [Line.counted, hbefore, List.countP_eq_length_filter]
    rw [hlate, hearly, hduplicate]
  rw [hcounted, margin_eq, ← hmg, WriteReport.bytes_done] at hexec
  refine ⟨_, hexec, fun x hx hr => ?_, fun k hk hfree => ?_, fun a ha => ?_, fun ha => ?_, fun ha => ?_, ?_, fun hkept => ?_,
    fun hkind hlead => ?_, ?_, State.wrote_others _ _ _⟩
  · rw [← hbefore]
    exact hmixes.reached x hx hr
  · rw [← hbefore]
    refine hmixes.other _ fun x hx hr haddr => ?_
    obtain ⟨i, hi, hxi⟩ := (RingEntry.reaches_iff hd).mp hr
    have hkey := RingEntry.ahead_inj hk (by omega) haddr
    exact hfree x hx (by omega)
  · refine (hmixes.other _ fun x _ _ => ?_).trans (Store.read_settled_outside hp hst ha)
    have := RingEntry.ahead_lt hlen (s.line l).hs (d0 / 40 + x.1).toNat
    have : p.base ≤ p.ahead (s.line l).hs (d0 / 40 + x.1).toNat := Nat.le_add_right _ _
    omega
  · rw [State.wrote_line, Line.settledAnchor_anchoring ha ho]
    rfl
  · rw [State.wrote_line, Line.settledAnchor_anchored ha]
    rfl
  · rw [State.wrote_line, Line.countWrite_stats]
  · rw [State.wrote_line, Line.countWrite_window_kept hkept]
  · rw [State.wrote_line, Line.countWrite_window_lead hkind hlead, margin_eq, ← hmg]
  · unfold State.wrote
    cases w.kind <;> rfl

/-- Settles O25: the slot of each cell held nothing, before the anchoring as after it. -/
theorem commitAnchorsIdleLine : Obligations.CommitAnchorsIdleLine := by
  intro s l d p n hm hst hdep hmask hbroken hlength h1 h8 he hidle hanchor hp h256 hhs hempty hdepth hfits
  have h : s.Sends (.commitDeposit (n + 1)) l d.write := .inl ⟨d, n, rfl, hdep, hmask, ⟨hbroken, hlength, h1, h8⟩, rfl⟩
  have ha : (s.line l).MustAnchor d.write := .inr fun o ho => nomatch hanchor.symm.trans ho
  have ho : (s.line l).Settles d.write ((s.line l).horizon + BitVec.ofNat 32 (40 * (s.line l).depth) - d.time) := .inl ⟨ha, rfl⟩
  have hd0 := (Line.distance_anchoring ha ho (by omega)).symm
  have hlen : 0 < p.len := by omega
  obtain ⟨st', hmixes, hexec⟩ := h.aligned hm hst he ho hd0 (by omega) hp hlen
  have hslot (hs k : Nat) : s.store.read (p.ahead hs k) = StoreCell.reset := hempty _ (Nat.mod_lt _ hlen)
  have hbefore (k : Nat) : (s.store.settledAnchor (s.line l) d.write).read (p.ahead (s.line l).hs k) = StoreCell.reset := by
    rw [Store.read_settled_ahead ha hp hst hlen, hslot]
    exact if_pos (Four.get_all _ _)
  have hcell (i : Nat) : (40 * ((s.line l).depth : Int) / 40 + i).toNat = (s.line l).depth + i := by omega
  have hcells (x : Nat × List Sample) (hx : x ∈ d.write.cells) : x.1 < d.cells ∧ x.2 = d.cell x.1 := by
    obtain ⟨i, hi, rfl⟩ := List.mem_map.mp hx
    exact ⟨List.mem_range.mp hi, rfl⟩
  have hreaches (i : Nat) (hi : i < d.cells) : p.reaches (40 * (s.line l).depth) i = true := decide_eq_true (by omega)
  have hnone (f : Nat × List Sample → Bool) (hf : ∀ x ∈ d.write.cells, f x = false) : d.write.cells.countP f = 0 :=
    List.countP_eq_zero.mpr fun x hx => by rw [hf x hx]; exact Bool.false_ne_true
  have hcounted : (s.line l).counted p d.write (40 * (s.line l).depth) s.store = ⟨d.cells, 0, 0, 0⟩ := by
    have hcount : d.write.cells.length = d.cells := (List.length_map _).trans List.length_range
    unfold Line.counted
    rw [hnone _ fun x hx => decide_eq_false (by omega),
      hnone _ fun x hx => decide_eq_false (by have := (hcells x hx).1; omega),
      hnone _ fun x hx => by rw [hbefore]; exact Bool.and_false _, hcount]
    rfl
  have hwindow : (40 * ((s.line l).depth : Int)) = max (-32768 : Int) (min (32767 : Int) (40 * ((s.line l).depth : Int))) := by omega
  rw [hcounted, margin_eq, ← hwindow, WriteReport.bytes_done] at hexec
  refine ⟨_, hexec, ?_, fun hrange => ?_, fun hlead => ?_, fun i hi => ?_, fun a hfree => ?_, ?_, State.wrote_others _ _ _⟩
  · rw [State.wrote_line, Line.settledAnchor_anchoring ha ho, hidle]
    rfl
  · rw [State.wrote_line, Line.countWrite_stats]
    exact hrange.min_add_zero
  · rw [State.wrote_line]
    exact Line.countWrite_window_kept (.inr hlead)
  · have hread := hmixes.reached (i, d.cell i) (List.mem_map.mpr ⟨i, List.mem_range.mpr hi, rfl⟩) (hreaches i hi)
    rw [hbefore, hcell] at hread
    rw [Nat.add_assoc]
    exact hread
  · refine (hmixes.other a fun x hx _ => ?_).trans ?_
    · rw [hcell, RingEntry.ahead, ← Nat.add_assoc]
      exact hfree x.1 (hcells x hx).1
    · rw [Store.read_settled_anchoring ha hp hst]
      split
      · next hin =>
        have hreset : s.store.read a = StoreCell.reset := by
          rw [← hempty (a - p.base) (by omega), Nat.add_sub_cancel' hin.1]
        rw [hreset]
        exact if_pos (Four.get_all _ _)
      · rfl
  · have hcount : d.write.cells.length = d.cells := (List.length_map _).trans List.length_range
    have houtcome : outcomeByte d.write.cells.length 0 0 = 0 := by
      unfold outcomeByte
      rw [if_neg (by omega), if_neg (by omega)]
      rfl
    unfold State.wrote
    rw [houtcome]
    rfl

/-- The write of a FILL CELLS with ADD for cell 0 alone. -/
def singleFill (s : State) (m : Fin 4) (time : Word32) (gain : Byte) : Write :=
  ⟨.fill, m, time, .add, false, [(0, s.fillPattern.map (gainStep (gainOf gain)))]⟩

/-- Settles O26. -/
theorem fillWritesOrFindsDuplicate : Obligations.FillWritesOrFindsDuplicate := by
  intro s l m mask source gain time offset p j n hm hst hmask hsource he hrange hanchor hp h256 hj hdist
  have h : s.Sends (.fillCells mask source time 0x11 gain (n + 1)) l (singleFill s m time gain) :=
    .inr ⟨mask, source, 0x11, gain, n, m, rfl, hmask, hsource, by decide, rfl⟩
  have ha : ¬(s.line l).MustAnchor (singleFill s m time gain) := fun ha =>
    ha.elim (fun hmark => absurd hmark Bool.false_ne_true) fun hno => hno offset hanchor
  have ho : (s.line l).Settles (singleFill s m time gain) offset := .inr ⟨ha, hanchor⟩
  have hlen : 0 < p.len := by omega
  obtain ⟨st', hmixes, hexec⟩ := h.aligned hm hst he ho hdist.symm (by omega) hp hlen
  have hreaches : p.reaches (40 * j) 0 = true := decide_eq_true (by omega)
  have hcell : (40 * (j : Int) / 40 + (0 : Nat)).toNat = j := by omega
  have hread := hmixes.reached _ (List.mem_singleton.mpr rfl) hreaches
  have hother (a : Nat) (hfree : a ≠ p.ahead (s.line l).hs j) : st'.read a = s.store.read a := by
    rw [← Store.settledAnchor_anchored (st := s.store) ha]
    refine hmixes.other a fun x hx _ => ?_
    rw [List.mem_singleton.mp hx, hcell]
    exact hfree
  have hcounted {dup : Bool} (hdup : isDuplicate (singleFill s m time gain) (s.store.read (p.ahead (s.line l).hs j)) = dup) :
      (s.line l).counted p (singleFill s m time gain) (40 * j) s.store = if dup = true then ⟨0, 0, 0, 1⟩ else ⟨1, 0, 0, 0⟩ :=
    Line.counted_single rfl hreaches (by rw [Store.settledAnchor_anchored ha, hcell]; exact hdup)
  rw [Store.settledAnchor_anchored ha, hcell] at hread
  rw [Line.settledAnchor_anchored ha, Line.countWrite_fill rfl, WriteReport.bytes_done] at hexec
  have hlink (j : Link) (hj : j ≠ .media) (L : Line) (st : Store) (bytes : List Byte) :
      (s.wrote (singleFill s m time gain) l L st bytes).link j = s.link j := by
    cases j
    · rfl
    · exact absurd rfl hj
  refine ⟨fun hempty => ?_, fun hfilled hholds => ?_⟩
  · have hdup : isDuplicate (singleFill s m time gain) (s.store.read (p.ahead (s.line l).hs j)) = false := by
      rw [← StoreCell.duplicates_eq, StoreCell.duplicates, RingEntry.ahead, hempty]
      rfl
    have hstate : (s.store.read (p.ahead (s.line l).hs j)).slot.state = .empty := by
      change ((s.store.read (p.ahead (s.line l).hs j)).slot.state == SlotState.filled) = false at hempty
      cases hst : (s.store.read (p.ahead (s.line l).hs j)).slot.state with
      | empty => rfl
      | filled => rw [hst] at hempty; exact absurd hempty (by decide)
    rw [hcounted hdup, if_neg Bool.false_ne_true] at hexec
    refine ⟨_, hexec, hread.trans (if_pos hstate), hother, ⟨rfl, fun j hj => hlink j hj _ _ _⟩, ?_, State.wrote_others _ _ _,
      ⟨rfl, rfl, rfl, rfl, rfl, rfl, rfl, rfl, rfl, rfl, rfl, rfl, rfl, rfl⟩, rfl⟩
    rw [State.wrote_line]
    exact congrArg (fun x => { s.line l with stats := x }) hrange.min_add_zero
  · have hdup : isDuplicate (singleFill s m time gain) (s.store.read (p.ahead (s.line l).hs j)) = true := by
      rw [← StoreCell.duplicates_eq, StoreCell.duplicates, RingEntry.ahead, hfilled]
      exact hholds
    rw [hcounted hdup, if_pos rfl] at hexec
    refine ⟨_, hexec, fun a => ?_, ⟨rfl, fun j hj => hlink j hj _ _ _⟩, ?_, State.wrote_others _ _ _,
      ⟨rfl, rfl, rfl, rfl, rfl, rfl, rfl, rfl, rfl, rfl, rfl, rfl, rfl, rfl⟩, rfl⟩
    · by_cases hat : a = p.ahead (s.line l).hs j
      · rw [hat]
        exact hread.trans (slotAfter_duplicate hdup _)
      · exact hother a hat
    · obtain ⟨hlate, hearly, -⟩ := hrange
      have hsum : min 65535 ((s.line l).stats.duplicate + 1) =
          if (s.line l).stats.duplicate < 65535 then (s.line l).stats.duplicate + 1 else 65535 := by split <;> omega
      rw [State.wrote_line, ← hsum]
      simp only [Nat.add_zero, min_eq_right hlate, min_eq_right hearly]

end Settled

end Sys2Proof.Machine
end

section
/-! PROOF. The lines of a mask, written one by one: what a commit or fill begins, how a part of its lines goes on with the rest, and what a
frame between finds (O28). -/

namespace Sys2Proof.Machine

section Jobs

variable {s : State} {w : Write} {j : WriteJob}

/-! ### Writes and the write under way -/

/-- The state with another write under way. -/
def State.withJob (s : State) (x : Option WriteJob) : State := { s with job := x }

theorem State.writeLines_withJob (w : Write) (x : Option WriteJob) (ls : List (Fin 4)) : ∀ s : State,
    (s.withJob x).writeLines w ls = (s.writeLines w ls).withJob x := by
  induction ls with
  | nil => exact fun _ => rfl
  | cons l ls ih => exact fun s => ih (s.writeLine w l)

theorem State.reportLines_withJob (w : Write) (x : Option WriteJob) (ls : List (Fin 4)) : ∀ s : State,
    (s.withJob x).reportLines w ls = s.reportLines w ls := by
  induction ls with
  | nil => exact fun _ => rfl
  | cons l ls ih => exact fun s => congrArg (s.reportLine w l :: ·) (ih (s.writeLine w l))

theorem State.writeLines_append (s : State) (w : Write) (xs ys : List (Fin 4)) :
    s.writeLines w (xs ++ ys) = (s.writeLines w xs).writeLines w ys := List.foldl_append

theorem State.reportLines_append (w : Write) (ys xs : List (Fin 4)) : ∀ s : State,
    s.reportLines w (xs ++ ys) = s.reportLines w xs ++ (s.writeLines w xs).reportLines w ys := by
  induction xs with
  | nil => exact fun _ => rfl
  | cons l xs ih => exact fun s => congrArg (s.reportLine w l :: ·) (ih (s.writeLine w l))

/-! ### Going on with a write -/

/-- The write under way when lines are left after `n` of them. -/
theorem State.advance_part {n : Nat} (hj : s.job = some j) (hn : n < j.left.length) : s.advance n =
    (s.writeLines j.write (j.left.take n)).withJob (some
      ⟨j.write, j.left.drop n, j.report ++ (s.reportLines j.write (j.left.take n)).flatMap (WriteReport.bytes j.write)⟩) := by
  simp only [State.advance, hj]
  exact if_neg (by omega)

theorem State.advance_all {n : Nat} (hj : s.job = some j) (hn : j.left.length ≤ n) : s.advance n =
    (s.writeLines j.write j.left).endWrites j.write
      (j.report ++ (s.reportLines j.write j.left).flatMap (WriteReport.bytes j.write)) := by
  simp only [State.advance, hj, List.take_of_length_le hn]
  exact if_pos hn

theorem State.advance_zero (hj : s.job = some j) (hleft : j.left ≠ []) : s.advance 0 = s := by
  rw [State.advance_part hj (List.length_pos_iff.mpr hleft)]
  obtain ⟨w, ls, report⟩ := j
  simp only [List.take_zero, List.drop_zero, State.reportLines, List.flatMap_nil, List.append_nil]
  rw [← hj]
  rfl

/-- Dividing the lines makes no difference. -/
theorem State.advance_add {a : Nat} (hj : s.job = some j) (ha : a < j.left.length) (b : Nat) :
    (s.advance a).advance b = s.advance (a + b) := by
  obtain ⟨w, ls, report⟩ := j
  have hsplit : (ls.take a ++ (ls.drop a).take b) = ls.take (a + b) := List.take_add.symm
  rw [State.advance_part hj ha]
  dsimp only
  have hlen : (ls.drop a).length = ls.length - a := List.length_drop
  change a < ls.length at ha
  by_cases hb : ls.length ≤ a + b
  · have hwhole : ls.take a ++ ls.drop a = ls := List.take_append_drop a ls
    rw [State.advance_all hj hb, State.advance_all rfl (by dsimp only; omega)]
    dsimp only
    rw [State.writeLines_withJob, State.reportLines_withJob, ← State.writeLines_append, List.append_assoc, ← List.flatMap_append,
      ← State.reportLines_append, hwhole]
    rfl
  · rw [State.advance_part hj (show a + b < ls.length by omega), State.advance_part rfl (by dsimp only; omega)]
    dsimp only
    rw [State.writeLines_withJob, State.reportLines_withJob, ← State.writeLines_append, List.append_assoc, ← List.flatMap_append,
      ← State.reportLines_append, hsplit, List.drop_drop]
    rfl

/-- One line of several: its write, and its report in its place. -/
theorem State.advance_one {l : Fin 4} {rest : List (Fin 4)} {report : List Byte} (hj : s.job = some ⟨w, l :: rest, report⟩)
    (hrest : rest ≠ []) :
    s.advance 1 = (s.writeLine w l).withJob (some ⟨w, rest, report ++ (s.reportLine w l).bytes w⟩) := by
  rw [State.advance_part hj (show 1 < (l :: rest).length from Nat.succ_lt_succ (List.length_pos_iff.mpr hrest))]
  simp [State.writeLines, State.reportLines]

/-! ### The requests that go on with a write -/

theorem State.goesOn_eq (hj : s.job = some j) (k : WriteKind) : s.goesOn k = (j.write.kind == k) := by
  simp only [State.goesOn, hj]

theorem exec_commitDeposit_goesOn (hl : s.resetLow = false) (hj : s.job = some j) (hk : j.write.kind = .media) (n : Nat) :
    exec (.commitDeposit n) s = .next (s.advance n) := by
  show execCommitDeposit s n = _
  unfold execCommitDeposit
  rw [State.goesOn_eq hj, hk]
  exact (if_pos rfl).trans (State.take_high hl)

theorem exec_fillCells_goesOn (hl : s.resetLow = false) (hj : s.job = some j) (hk : j.write.kind = .fill) (mask source : Byte)
    (time : Word32) (control gain : Byte) (n : Nat) : exec (.fillCells mask source time control gain n) s = .next (s.advance n) := by
  show execFillCells mask source time control gain s n = _
  unfold execFillCells
  rw [State.goesOn_eq hj, hk]
  exact (if_pos rfl).trans (State.take_high hl)

theorem State.beginCommit_resetLow (s : State) : s.beginCommit.resetLow = s.resetLow := by
  unfold State.beginCommit
  split
  · rfl
  · split
    · rfl
    · split <;> rfl

theorem State.beginFill_resetLow (s : State) (mask source : Byte) (time : Word32) (control gain : Byte) :
    (s.beginFill mask source time control gain).resetLow = s.resetLow := by
  unfold State.beginFill
  split
  · split
    · rfl
    · split <;> rfl
  · rfl

theorem State.beginCommit_job (hj : s.job = none) (h : s.beginCommit.job = some j) : j.write.kind = .media := by
  unfold State.beginCommit at h
  split at h
  · exact nomatch hj.symm.trans h
  · split at h
    · exact nomatch hj.symm.trans h
    · split at h
      · exact nomatch hj.symm.trans h
      · obtain rfl := Option.some.inj h
        rfl

theorem State.beginFill_job {mask source control gain : Byte} {time : Word32} (hj : s.job = none)
    (h : (s.beginFill mask source time control gain).job = some j) : j.write.kind = .fill := by
  unfold State.beginFill at h
  split at h
  · split at h
    · exact nomatch hj.symm.trans h
    · split at h
      · exact nomatch hj.symm.trans h
      · obtain rfl := Option.some.inj h
        rfl
  · exact nomatch hj.symm.trans h

/-- A write with lines left after `a` of them was under way, and `a` were not all. -/
theorem State.job_of_advance {a : Nat} (h : (s.advance a).job ≠ none) : ∃ j, s.job = some j ∧ a < j.left.length := by
  cases hj : s.job with
  | none => exact absurd (by rw [State.advance_idle hj, hj]) h
  | some j =>
    refine ⟨j, rfl, Nat.lt_of_not_le fun hle => h ?_⟩
    rw [State.advance_all hj hle]
    rfl

/-- A frame of the Media Link finds all lines written. -/
theorem State.takeMedia_finished (hl : s.resetLow = false) (hi : s.mLink.ignoring = false) (hj : s.job = some j) (f : State → State) :
    s.takeMedia f = (s.advance j.left.length).takeMedia f := by
  have hfinish : s.finishWrites = s.advance j.left.length := by simp only [State.finishWrites, hj]
  have hu : (s.advance j.left.length).job = none ∧ (s.advance j.left.length).mLink.ignoring = false := by
    rw [State.advance_all hj (Nat.le_refl _)]
    exact ⟨rfl, by rw [State.endWrites_mLink, State.writeLines_mLink]; exact hi⟩
  obtain ⟨hidle, hheard⟩ := hu
  have hhears : (s.advance j.left.length).Hears .media := ⟨by rw [State.advance_resetLow]; exact hl, hheard, fun _ => hidle⟩
  rw [hhears.takeMedia, State.takeMedia, State.take_high hl, State.hear_heard (k := .media) hi, hfinish]

end Jobs

/-! ### A frame between, and the obligation -/

section Settled

variable {s : State} {j : WriteJob} {c : Instr}

theorem exec_commitDeposit_other (hk : s.goesOn .media = false) (n : Nat) :
    exec (.commitDeposit n) s = s.takeMedia fun s => s.beginCommit.advance n :=
  if_neg (by rw [hk]; exact Bool.false_ne_true)

theorem exec_fillCells_other (hk : s.goesOn .fill = false) (mask source : Byte) (time : Word32) (control gain : Byte) (n : Nat) :
    exec (.fillCells mask source time control gain n) s = s.takeMedia fun s => (s.beginFill mask source time control gain).advance n :=
  if_neg (by rw [hk]; exact Bool.false_ne_true)

/-- A request of the Media Link that does not go on with the write under way finds it done. -/
theorem exec_finished (hl : s.resetLow = false) (hi : s.mLink.ignoring = false) (hj : s.job = some j) (hc : Instr.link c = some .media)
    (hw : WellFormed c = true) (hcommit : ∀ n, c = .commitDeposit n → j.write.kind = .fill)
    (hfill : ∀ mask source time control gain n, c = .fillCells mask source time control gain n → j.write.kind = .media) :
    exec c s = exec c (s.advance j.left.length) := by
  have hfinished (f : State → State) := State.takeMedia_finished hl hi hj f
  have hon (f : State → State) : s.takeOn .media f = (s.advance j.left.length).takeOn .media f := hfinished f
  have hidle : (s.advance j.left.length).job = none := by rw [State.advance_all hj (Nat.le_refl _)]; rfl
  cases c with
  | commitDeposit n =>
    have hother : s.goesOn .media = false := by rw [State.goesOn_eq hj, hcommit n rfl]; rfl
    rw [exec_commitDeposit_other hother, exec_commitDeposit_other (State.goesOn_idle hidle), hfinished]
  | fillCells mask source time control gain n =>
    have hother : s.goesOn .fill = false := by rw [State.goesOn_eq hj, hfill mask source time control gain n rfl]; rfl
    rw [exec_fillCells_other hother, exec_fillCells_other (State.goesOn_idle hidle), hfinished]
  | unknownCode k code =>
    obtain rfl : k = Link.media := Option.some.inj hc
    have hknown : knownCode .media code = false := by simpa [WellFormed] using hw
    show execUnknownCode .media code s = execUnknownCode .media code _
    unfold execUnknownCode
    rw [hknown, if_neg Bool.false_ne_true, if_neg Bool.false_ne_true, hon]
  | truncatedFrame k code =>
    obtain rfl : k = Link.media := Option.some.inj hc
    have htaken : (argumentCodes .media).contains code = true := hw
    show execTruncatedFrame .media code s = execTruncatedFrame .media code _
    unfold execTruncatedFrame
    rw [if_pos htaken, if_pos htaken, hon]
  | lineStatus k | readLinkStatus k | clearLinkStatus k | setIrqMode k =>
    obtain rfl : k = Link.media := Option.some.inj hc
    simp only [exec, execLineStatus, execReadLinkStatus, execClearLinkStatus, execSetIrqMode, hon]
  | openDeposit | depositData | abandonDeposit | loadFillPattern | setPlayout | realign | realignWithClear | captureRead
  | readAndClearStatistics =>
    simp only [exec, execOpenDeposit, execDepositData, execAbandonDeposit, execLoadFillPattern, execSetPlayout, execRealign,
      execRealignWithClear, execCaptureRead, execReadAndClearStatistics, hfinished]
  | startTimebase | configureLine | enableLine | disableLine | setMode | setSupervision | writeTones | writeProgram | startSignal | stopSignal
  | loadCid | cidAlert | ringStart | ringStop | readEvents => exact nomatch hc
  | _ => cases hc

theorem maskLines_ne_nil {m : Four Bool} (h : ∃ l, m.get l = true) : maskLines m ≠ [] := fun hnil => by
  obtain ⟨l, hl⟩ := h
  have hmem (l : Fin 4) : l ∈ four := by revert l; decide
  exact List.filter_eq_nil_iff.mp hnil l (hmem l) hl

theorem maskOf_get (mask : Byte) (l : Fin 4) : (maskOf mask).get l = mask.getLsbD l.val := by
  revert l
  exact fun | 0 => rfl | 1 => rfl | 2 => rfl | 3 => rfl

theorem maskOf_some {mask : Byte} (h1 : 1 ≤ mask.toNat) (h15 : mask.toNat ≤ 15) : ∃ l, (maskOf mask).get l = true := by
  by_contra hnone
  have hclear (l : Fin 4) : mask.toNat / 2 ^ l.val % 2 = 0 := by
    have hbit : (maskOf mask).get l ≠ true := fun h => hnone ⟨l, h⟩
    rw [maskOf_get, BitVec.getLsbD, Nat.testBit_eq_decide_div_mod_eq, Ne, decide_eq_true_iff] at hbit
    omega
  have h0 := hclear 0
  have h1 := hclear 1
  have h2 := hclear 2
  have h3 := hclear 3
  simp only [Fin.val_zero, Fin.val_one, Fin.val_two, show (3 : Fin 4).val = 3 from rfl] at h0 h1 h2 h3
  omega

/-- Taking more of the lines that are left is going on with them: a commit or a fill that begins with `a` lines and goes on with `b`. -/
theorem State.advance_goesOn {u t : State} {a b : Nat} (hu : u.advance a = t) (ht : t.job ≠ none) :
    ∃ i j, u.job = some i ∧ t.job = some j ∧ j.write = i.write ∧ t.advance b = u.advance (a + b) := by
  obtain ⟨j, hj, ha⟩ := State.job_of_advance (hu ▸ ht)
  exact ⟨j, ⟨j.write, j.left.drop a, _⟩, hj, hu ▸ congrArg State.job (State.advance_part hj ha), rfl, hu ▸ State.advance_add hj ha b⟩

/-- Settles O28: a write under way is its lines still to be written, and dividing a list of lines divides the write. -/
theorem linesOfAMaskAreWrittenOneByOne : Obligations.LinesOfAMaskAreWrittenOneByOne := by
  refine ⟨fun s d hm hd hcomplete hmask => ?_, fun s mask source control gain time m hm h1 h15 hsource hcontrol => ?_,
    fun s t a b hm => ⟨fun hexec ht => ?_, fun mask source time control gain hexec ht => ?_⟩,
    fun s one more l rest w report deposit hl hi hj hmore hsends => ?_, fun s j c more bytes hl hi hj hmore hframe hwell => ?_⟩
  · rw [hm.commitDeposit, State.beginCommit_complete hd hcomplete]
    exact congrArg Host.Outcome.next (State.advance_zero (s := s.beginWrites d.write (maskLines d.mask)) rfl (maskLines_ne_nil hmask))
  · have hlines : maskLines (maskOf mask) = four.filter fun l => mask.getLsbD l.val :=
      List.filter_congr fun l _ => maskOf_get mask l
    rw [hm.fillCells, State.beginFill_taken h1 h15 hsource hcontrol, ← hlines]
    exact congrArg Host.Outcome.next (State.advance_zero (s := s.beginWrites (fillWrite s.fillPattern m time control gain) _) rfl
      (maskLines_ne_nil (maskOf_some h1 h15)))
  · rw [hm.commitDeposit] at hexec ⊢
    have hu := Host.Outcome.next.inj hexec
    obtain ⟨i, j, hi, hj, hwrite, hadd⟩ := State.advance_goesOn (b := b) hu ht
    have hkind := State.beginCommit_job (hm.2.2 rfl) hi
    have hlow : t.resetLow = false := by rw [← hu, State.advance_resetLow, State.beginCommit_resetLow]; exact hm.1
    rw [exec_commitDeposit_goesOn hlow hj (hwrite ▸ hkind), hadd]
  · rw [hm.fillCells] at hexec ⊢
    have hu := Host.Outcome.next.inj hexec
    obtain ⟨i, j, hi, hj, hwrite, hadd⟩ := State.advance_goesOn (b := b) hu ht
    have hkind := State.beginFill_job (hm.2.2 rfl) hi
    have hlow : t.resetLow = false := by rw [← hu, State.advance_resetLow, State.beginFill_resetLow]; exact hm.1
    rw [exec_fillCells_goesOn hlow hj (hwrite ▸ hkind), hadd]
  · have hexec : exec more s = .next (s.advance 1) := by
      rcases hmore with ⟨hk, rfl⟩ | ⟨hk, mask, source, time, control, gain, rfl⟩
      · exact exec_commitDeposit_goesOn hl hj hk 1
      · exact exec_fillCells_goesOn hl hj hk mask source time control gain 1
    refine ⟨_, _, hsends.exec ⟨hl, hi, fun _ => rfl⟩, rfl, fun hrest => ?_, fun hrest => ?_⟩
    · rw [hexec, State.advance_one hj hrest]
      rfl
    · subst hrest
      rw [hexec, State.advance_last hj]
      unfold State.endWrites
      cases w.kind <;> rfl
  · have hidle : (s.advance j.left.length).job = none := by rw [State.advance_all hj (Nat.le_refl _)]; rfl
    have hlink := Instr.link_of_frameOf hframe
    rcases hmore with ⟨hk, rfl, hno⟩ | ⟨hk, ⟨mask, source, time, control, gain, rfl⟩, hno⟩
    · exact ⟨_, exec_commitDeposit_goesOn hl hj hk _, hidle,
        exec_finished hl hi hj hlink hwell (fun n hc => absurd hc (hno n)) fun _ _ _ _ _ _ _ => hk⟩
    · exact ⟨_, exec_fillCells_goesOn hl hj hk mask source time control gain _, hidle,
        exec_finished hl hi hj hlink hwell (fun _ _ => hk) fun _ _ _ _ _ n hc => absurd hc (hno _ _ _ _ _ n)⟩

end Settled

end Sys2Proof.Machine
end

section
/-! PROOF. Reading and writing request frames agree: what the arguments of a frame are read as is exactly the command whose frame they begin
with (O60). -/

namespace Sys2Proof.Machine

/-! ### Fields -/

section Fields

theorem bytes2_word16 (hi lo : Byte) : bytes2 (word16 hi lo) = [hi, lo] := by
  have hhi : (word16 hi lo).extractLsb' 8 8 = hi := BitVec.extractLsb'_append_eq_left
  have hlo : (word16 hi lo).extractLsb' 0 8 = lo := (BitVec.extractLsb'_append_eq_of_add_le (by decide)).trans BitVec.extractLsb'_eq_self
  rw [bytes2, hhi, hlo]

theorem word16_bytes (x : Word16) : word16 (x.extractLsb' 8 8) (x.extractLsb' 0 8) = x :=
  (BitVec.extractLsb'_append_extractLsb'_eq_extractLsb' rfl).trans BitVec.extractLsb'_eq_self

theorem bytes4_word32 (b3 b2 b1 b0 : Byte) : bytes4 (word32 b3 b2 b1 b0) = [b3, b2, b1, b0] := by
  have h3 : (word32 b3 b2 b1 b0).extractLsb' 24 8 = b3 := BitVec.extractLsb'_append_eq_left
  have h2 : (word32 b3 b2 b1 b0).extractLsb' 16 8 = b2 :=
    (BitVec.extractLsb'_append_eq_of_add_le (by decide)).trans BitVec.extractLsb'_append_eq_left
  have h1 : (word32 b3 b2 b1 b0).extractLsb' 8 8 = b1 :=
    (BitVec.extractLsb'_append_eq_of_add_le (by decide)).trans
      ((BitVec.extractLsb'_append_eq_of_add_le (by decide)).trans BitVec.extractLsb'_append_eq_left)
  have h0 : (word32 b3 b2 b1 b0).extractLsb' 0 8 = b0 :=
    (BitVec.extractLsb'_append_eq_of_add_le (by decide)).trans
      ((BitVec.extractLsb'_append_eq_of_add_le (by decide)).trans
        ((BitVec.extractLsb'_append_eq_of_add_le (by decide)).trans BitVec.extractLsb'_eq_self))
  rw [bytes4, h3, h2, h1, h0]

theorem word32_bytes (x : Word32) :
    word32 (x.extractLsb' 24 8) (x.extractLsb' 16 8) (x.extractLsb' 8 8) (x.extractLsb' 0 8) = x := by
  have h1 : x.extractLsb' 8 8 ++ x.extractLsb' 0 8 = x.extractLsb' 0 16 := BitVec.extractLsb'_append_extractLsb'_eq_extractLsb' rfl
  have h2 : x.extractLsb' 16 8 ++ x.extractLsb' 0 16 = x.extractLsb' 0 24 := BitVec.extractLsb'_append_extractLsb'_eq_extractLsb' rfl
  have h3 : x.extractLsb' 24 8 ++ x.extractLsb' 0 24 = x.extractLsb' 0 32 := BitVec.extractLsb'_append_extractLsb'_eq_extractLsb' rfl
  unfold word32
  rw [h1]
  exact (congrArg (x.extractLsb' 24 8 ++ ·) h2).trans (h3.trans BitVec.extractLsb'_eq_self)

/-! ### Lists -/

theorem readWords_iff (n : Nat) : ∀ {bs : List Byte} {ws : List Word16},
    readWords n bs = some ws ↔ ws.length = n ∧ ∃ more, bs = writeWords ws ++ more := by
  induction n with
  | zero =>
    intro bs ws
    rw [readWords, Option.some_inj, List.length_eq_zero_iff, eq_comm]
    exact ⟨fun h => ⟨h, bs, by rw [h]; rfl⟩, And.left⟩
  | succ n ih =>
    intro bs ws
    constructor
    · intro h
      match bs, h with
      | hi :: lo :: rest, h =>
        rw [readWords, Option.map_eq_some_iff] at h
        obtain ⟨vs, hvs, rfl⟩ := h
        obtain ⟨hlen, more, rfl⟩ := ih.mp hvs
        exact ⟨congrArg Nat.succ hlen, more, by
          show _ = (bytes2 (word16 hi lo) ++ writeWords vs) ++ more
          rw [bytes2_word16]
          rfl⟩
    · rintro ⟨hlen, more, rfl⟩
      match ws, hlen with
      | v :: vs, hlen =>
        have hrest := ih.mpr ⟨Nat.succ.inj hlen, more, rfl⟩
        show (readWords n (writeWords vs ++ more)).map (word16 (v.extractLsb' 8 8) (v.extractLsb' 0 8) :: ·) = _
        rw [hrest, word16_bytes]
        rfl

theorem readSegments_iff (n : Nat) : ∀ {bs : List Byte} {gs : List RawSegment},
    readSegments n bs = some gs ↔ gs.length = n ∧ ∃ more, bs = writeSegments gs ++ more := by
  induction n with
  | zero =>
    intro bs gs
    rw [readSegments, Option.some_inj, List.length_eq_zero_iff, eq_comm]
    exact ⟨fun h => ⟨h, bs, by rw [h]; rfl⟩, And.left⟩
  | succ n ih =>
    intro bs gs
    constructor
    · intro h
      match bs, h with
      | tone :: hi :: lo :: rest, h =>
        rw [readSegments, Option.map_eq_some_iff] at h
        obtain ⟨vs, hvs, rfl⟩ := h
        obtain ⟨hlen, more, rfl⟩ := ih.mp hvs
        exact ⟨congrArg Nat.succ hlen, more, by
          show _ = (tone :: bytes2 (word16 hi lo) ++ writeSegments vs) ++ more
          rw [bytes2_word16]
          rfl⟩
    · rintro ⟨hlen, more, rfl⟩
      match gs, hlen with
      | v :: vs, hlen =>
        have hrest := ih.mpr ⟨Nat.succ.inj hlen, more, rfl⟩
        show (readSegments n (writeSegments vs ++ more)).map
          (⟨v.tone, word16 (v.duration.extractLsb' 8 8) (v.duration.extractLsb' 0 8)⟩ :: ·) = _
        rw [hrest, word16_bytes]
        rfl

theorem readBytes_iff (n : Nat) {bs xs : List Byte} : readBytes n bs = some xs ↔ xs.length = n ∧ ∃ more, bs = xs ++ more := by
  unfold readBytes
  constructor
  · intro h
    split at h
    · cases h
    · next hlen =>
      obtain rfl := Option.some.inj h
      exact ⟨List.length_take_of_le (Nat.le_of_not_lt hlen), bs.drop n, (List.take_append_drop n bs).symm⟩
  · rintro ⟨rfl, more, rfl⟩
    rw [List.length_append, if_neg (by omega), List.take_left]

/-- A counted list is read as what its count says, and as empty when the count is refused. -/
theorem readCounted_iff {α : Type} {read : Option (List α)} {write : List α → List Byte} {n : Nat} {bs : List Byte}
    (hempty : write [] = []) (hread : ∀ {xs}, read = some xs ↔ xs.length = n ∧ ∃ more, bs = write xs ++ more) (ok : Bool) {xs : List α} :
    readCounted ok read = some xs ↔ counted ok n xs = true ∧ ∃ more, bs = write xs ++ more := by
  cases ok with
  | true =>
    rw [readCounted, if_pos rfl, hread, counted, if_pos rfl, beq_iff_eq]
  | false =>
    rw [readCounted, if_neg Bool.false_ne_true, counted, if_neg Bool.false_ne_true, List.isEmpty_iff, Option.some_inj, eq_comm]
    exact ⟨fun h => ⟨h, bs, by rw [h, hempty]; rfl⟩, And.left⟩

theorem readCounted_words (ok : Bool) {n : Nat} {bs : List Byte} {ws : List Word16} : readCounted ok (readWords n bs) = some ws ↔
    counted ok n ws = true ∧ ∃ more, bs = writeWords ws ++ more := readCounted_iff rfl (readWords_iff n) ok

theorem readCounted_segments (ok : Bool) {n : Nat} {bs : List Byte} {gs : List RawSegment} :
    readCounted ok (readSegments n bs) = some gs ↔ counted ok n gs = true ∧ ∃ more, bs = writeSegments gs ++ more :=
  readCounted_iff rfl (readSegments_iff n) ok

theorem readCounted_bytes (ok : Bool) {n : Nat} {bs xs : List Byte} : readCounted ok (readBytes n bs) = some xs ↔
    counted ok n xs = true ∧ ∃ more, bs = xs ++ more := readCounted_iff (write := id) rfl (readBytes_iff n) ok

end Fields

/-! ### Frames with arguments -/

section Frames

variable {k : Link} {code : Byte} {args : List Byte} {c : Instr}

/-- The command can occur, and its frame, whole, stands in front of these bytes. -/
def Leads (c : Instr) (k : Link) (code : Byte) (args : List Byte) : Prop :=
  WellFormed c = true ∧ (∀ j x, c ≠ .truncatedFrame j x) ∧ ∃ written more, frameOf c = some (k, code :: written) ∧ args = written ++ more

theorem code_of_toNat {n : Nat} (h : code.toNat = n) : code = BitVec.ofNat 8 n := by
  rw [← h, BitVec.ofNat_toNat, BitVec.setWidth_eq]

theorem readWriteTones_leads (h : readWriteTones args = some c) : Leads c .control 0x08 args := by
  unfold readWriteTones at h
  split at h
  · next start rest =>
    split at h
    · next hstart =>
      split at h
      · next count fields =>
        obtain ⟨ws, hws, rfl⟩ := Option.map_eq_some_iff.mp h
        obtain ⟨hcounted, more, rfl⟩ := (readCounted_words _).mp hws
        exact ⟨(if_pos hstart).trans hcounted, nofun, start :: count :: writeWords ws, more,
          congrArg (fun x => some (Link.control, x)) (if_pos hstart), rfl⟩
      · cases h
    · next hstart =>
      obtain rfl := Option.some.inj h
      exact ⟨if_neg hstart, nofun, [start], rest, congrArg (fun x => some (Link.control, x)) (if_neg hstart), rfl⟩
  · cases h

theorem readWriteProgram_leads (h : readWriteProgram args = some c) : Leads c .control 0x09 args := by
  unfold readWriteProgram at h
  split at h
  · next record control repeats count rest =>
    obtain ⟨gs, hgs, rfl⟩ := Option.map_eq_some_iff.mp h
    obtain ⟨hcounted, more, rfl⟩ := (readCounted_segments _).mp hgs
    exact ⟨hcounted, nofun, record :: control :: repeats :: count :: writeSegments gs, more, rfl, rfl⟩
  · cases h

theorem readLoadCid_leads (h : readLoadCid args = some c) : Leads c .control 0x0C args := by
  unfold readLoadCid at h
  split at h
  · next line type length rest =>
    obtain ⟨payload, hpayload, rfl⟩ := Option.map_eq_some_iff.mp h
    obtain ⟨hcounted, more, rfl⟩ := (readCounted_bytes _).mp hpayload
    exact ⟨hcounted, nofun, line :: type :: length :: payload, more, rfl, rfl⟩
  · cases h

theorem readSetPlayout_leads (h : readSetPlayout args = some c) : Leads c .media 0x46 args := by
  unfold readSetPlayout at h
  split at h
  · obtain rfl := Option.some.inj h
    exact ⟨rfl, nofun, [_, _, _, _, _, _, _, _, _, _, _, _, _, _, _, _, _], _, by simp only [frameOf, writePlayout, bytes2_word16]; rfl, rfl⟩
  · cases h

theorem readRealign_leads (h : readRealign args = some c) : Leads c .media 0x47 args := by
  unfold readRealign at h
  split at h
  · next line slip control rest =>
    obtain rfl := Option.some.inj h
    cases hclear : control.getLsbD 0 with
    | true =>
      rw [if_pos rfl]
      exact ⟨hclear, nofun, [line, slip, control], rest, rfl, rfl⟩
    | false =>
      rw [if_neg Bool.false_ne_true]
      exact ⟨(congrArg (! ·) hclear : _), nofun, [line, slip, control], rest, rfl, rfl⟩
  · cases h

/-- A row whose arguments have a length of their own. -/
theorem leads_of_row {n : Nat} {c' : Instr} {written more : List Byte} (hcode : code.toNat = n) (h : some c' = some c)
    (hargs : args = written ++ more) (hw : WellFormed c' = true) (ht : ∀ j x, c' ≠ .truncatedFrame j x)
    (hframe : frameOf c' = some (k, BitVec.ofNat 8 n :: written)) : Leads c k code args := by
  obtain rfl := Option.some.inj h
  obtain rfl := code_of_toNat hcode
  exact ⟨hw, ht, written, more, hframe, hargs⟩

theorem readControl_leads (h : readControl code args = some c) : Leads c .control code args := by
  unfold readControl at h
  split at h
  case h_1 hcode =>
    exact leads_of_row (written := [_, _, _, _, _, _, _, _]) hcode h rfl rfl nofun (by simp only [frameOf, bytes2_word16]; rfl)
  case h_2 hcode => exact leads_of_row (written := [_]) hcode h rfl rfl nofun rfl
  case h_3 hcode => exact leads_of_row (written := [_]) hcode h rfl rfl nofun rfl
  case h_4 hcode => exact leads_of_row (written := [_, _]) hcode h rfl rfl nofun rfl
  case h_5 hcode => exact leads_of_row (written := [_, _, _]) hcode h rfl rfl nofun rfl
  case h_6 hcode => exact code_of_toNat hcode ▸ readWriteTones_leads h
  case h_7 hcode => exact code_of_toNat hcode ▸ readWriteProgram_leads h
  case h_8 hcode => exact leads_of_row (written := [_, _, _]) hcode h rfl rfl nofun rfl
  case h_9 hcode => exact leads_of_row (written := [_, _]) hcode h rfl rfl nofun rfl
  case h_10 hcode => exact code_of_toNat hcode ▸ readLoadCid_leads h
  case h_11 hcode => exact leads_of_row (written := [_, _]) hcode h rfl rfl nofun rfl
  case h_12 hcode =>
    exact leads_of_row (written := [_, _, _, _, _, _, _, _, _]) hcode h rfl rfl nofun (by simp only [frameOf, bytes2_word16]; rfl)
  case h_13 hcode => exact leads_of_row (written := [_]) hcode h rfl rfl nofun rfl
  case h_14 hcode => exact leads_of_row (written := [_]) hcode h rfl rfl nofun rfl
  case h_15 hcode => exact leads_of_row (written := [_]) hcode h rfl rfl nofun rfl
  case h_16 hcode => exact leads_of_row (written := [_]) hcode h rfl rfl nofun rfl
  case h_17 => cases h

theorem readMedia_leads (h : readMedia code args = some c) : Leads c .media code args := by
  unfold readMedia at h
  split at h
  case h_1 hcode =>
    exact leads_of_row (written := [_, _, _, _, _, _, _, _]) hcode h rfl rfl nofun (by simp only [frameOf, bytes4_word32]; rfl)
  case h_2 n1 n0 rest hcode =>
    obtain ⟨ws, hws, rfl⟩ := Option.map_eq_some_iff.mp h
    obtain ⟨hcounted, more, rfl⟩ := (readCounted_words _).mp hws
    exact leads_of_row (written := n1 :: n0 :: writeWords ws) hcode rfl rfl hcounted nofun (by simp only [frameOf, bytes2_word16]; rfl)
  case h_3 hcode =>
    exact leads_of_row (written := [_, _, _, _, _, _, _, _]) hcode h rfl rfl nofun
      (by simp only [frameOf, bytes4_word32, if_true]; rfl)
  case h_4 n1 n0 rest hcode =>
    obtain ⟨ws, hws, rfl⟩ := Option.map_eq_some_iff.mp h
    obtain ⟨hcounted, more, rfl⟩ := (readCounted_words _).mp hws
    exact leads_of_row (written := n1 :: n0 :: writeWords ws) hcode rfl rfl hcounted nofun (by simp only [frameOf, bytes2_word16]; rfl)
  case h_5 hcode => exact code_of_toNat hcode ▸ readSetPlayout_leads h
  case h_6 hcode => exact code_of_toNat hcode ▸ readRealign_leads h
  case h_7 hcode => exact leads_of_row (written := [_, _]) hcode h rfl rfl nofun rfl
  case h_8 hcode => exact leads_of_row (written := [_]) hcode h rfl rfl nofun rfl
  case h_9 hcode => exact leads_of_row (written := [_]) hcode h rfl rfl nofun rfl
  case h_10 hcode => exact leads_of_row (written := [_]) hcode h rfl rfl nofun rfl
  case h_11 => cases h

theorem readArguments_leads (h : readArguments k code args = some c) : Leads c k code args := by
  cases k
  · exact readControl_leads h
  · exact readMedia_leads h

theorem readArguments_of_leads (hcode : (argumentCodes k).contains code = true) (h : Leads c k code args) :
    readArguments k code args = some c := by
  obtain ⟨hw, ht, written, more, hframe, rfl⟩ := h
  cases c with
  | configureLine line playBase playLen capBase capLen =>
    cases hframe
    show some (Instr.configureLine line (word16 _ _) (word16 _ _) (word16 _ _) capLen) = _
    rw [word16_bytes, word16_bytes, word16_bytes]
  | enableLine | disableLine | setMode | setSupervision | startSignal | stopSignal | cidAlert | ringStop | readEvents | captureRead
  | readAndClearStatistics =>
    cases hframe
    rfl
  | lineStatus k | setIrqMode k =>
    cases hframe
    cases k <;> rfl
  | writeTones start count fields =>
    by_cases hstart : toneStartOk start = true
    · rw [frameOf, if_pos hstart] at hframe
      rw [WellFormed, if_pos hstart] at hw
      cases hframe
      have hread := (readCounted_words (toneCountOk count) (n := count.toNat)).mpr ⟨hw, more, rfl⟩
      exact (if_pos hstart).trans (congrArg (Option.map _) hread)
    · rw [frameOf, if_neg hstart] at hframe
      rw [WellFormed, if_neg hstart, Bool.and_eq_true, beq_iff_eq, List.isEmpty_iff] at hw
      obtain ⟨rfl, rfl⟩ := hw
      cases hframe
      exact if_neg hstart
  | writeProgram record control repeats count segments =>
    cases hframe
    have hread := (readCounted_segments (segmentCountOk count) (n := count.toNat)).mpr ⟨hw, more, rfl⟩
    exact congrArg (Option.map _) hread
  | loadCid line type length payload =>
    cases hframe
    have hread := (readCounted_bytes (cidLengthOk length) (n := length.toNat)).mpr ⟨hw, more, rfl⟩
    exact congrArg (Option.map _) hread
  | ringStart line on off bursts cid delay =>
    cases hframe
    show some (Instr.ringStart line (word16 _ _) (word16 _ _) bursts cid (word16 _ _)) = _
    rw [word16_bytes, word16_bytes, word16_bytes]
  | openDeposit mask source time control gain =>
    cases hframe
    show some (Instr.openDeposit mask source (word32 _ _ _ _) control gain) = _
    rw [word32_bytes]
  | depositData count samples =>
    cases hframe
    have hread := (readCounted_words (dataCountOk count) (n := count.toNat)).mpr ⟨hw, more, rfl⟩
    show (readCounted (dataCountOk (word16 _ _)) (readWords (word16 _ _).toNat _)).map (Instr.depositData (word16 _ _)) = _
    rw [word16_bytes]
    exact congrArg (Option.map _) hread
  | fillCells mask source time control gain writes =>
    by_cases hn : writes = 4
    · subst hn
      cases hframe
      show some (Instr.fillCells mask source (word32 _ _ _ _) control gain 4) = _
      rw [word32_bytes]
    · exact nomatch (if_neg hn).symm.trans hframe
  | loadFillPattern count samples =>
    cases hframe
    have hread := (readCounted_words (patternCountOk count) (n := count.toNat)).mpr ⟨hw, more, rfl⟩
    show (readCounted (patternCountOk (word16 _ _)) (readWords (word16 _ _).toNat _)).map (Instr.loadFillPattern (word16 _ _)) = _
    rw [word16_bytes]
    exact congrArg (Option.map _) hread
  | setPlayout line values =>
    cases hframe
    show some (Instr.setPlayout line ⟨_, _, _, _, word16 _ _, word16 _ _, word16 _ _, word16 _ _, _, _, _, _⟩) = _
    rw [word16_bytes, word16_bytes, word16_bytes, word16_bytes]
  | realign line slip control =>
    cases hframe
    have hclear : control.getLsbD 0 = false := by simpa [WellFormed] using hw
    exact congrArg some (if_neg (by rw [hclear]; exact Bool.false_ne_true))
  | realignWithClear line slip control =>
    cases hframe
    exact congrArg some (if_pos hw)
  | unknownCode j x =>
    cases hframe
    have hknown : knownCode k code = true := by rw [knownCode, hcode]; rfl
    exact absurd hknown (by simpa [WellFormed] using hw)
  | truncatedFrame j x => exact absurd rfl (ht j x)
  | commitDeposit writes =>
    by_cases hn : writes = 4
    · subst hn
      cases hframe
      exact absurd hcode (by decide)
    · exact nomatch (if_neg hn).symm.trans hframe
  | startTimebase | abandonDeposit =>
    cases hframe
    exact absurd hcode (by decide)
  | readLinkStatus k | clearLinkStatus k =>
    cases hframe
    cases k <;> exact absurd hcode (by decide)
  | _ => cases hframe

theorem readArguments_nil (hcode : (argumentCodes k).contains code = true) : readArguments k code [] = none := by
  have hall : ∀ x ∈ argumentCodes k, (readArguments k x []).isNone = true := by cases k <;> decide
  exact Option.isNone_iff_eq_none.mp (hall code (List.contains_iff_mem.mp hcode))

/-! ### Frames of a code byte alone -/

theorem bareCodes_status (k : Link) : (bareCodes k).contains 0x7C = true := by cases k <;> rfl

theorem bareCodes_clear (k : Link) : (bareCodes k).contains 0x7D = true := by cases k <;> rfl

theorem readBare_frame (h : readBare k code = some c) :
    WellFormed c = true ∧ (∀ j x, c ≠ .truncatedFrame j x) ∧ frameOf c = some (k, [code]) ∧ (bareCodes k).contains code = true := by
  unfold readBare at h
  split at h
  case h_1 hcode => cases h; obtain rfl := code_of_toNat hcode; exact ⟨rfl, nofun, rfl, by decide⟩
  case h_2 hcode => cases h; obtain rfl := code_of_toNat hcode; exact ⟨rfl, nofun, rfl, by decide⟩
  case h_3 hcode => cases h; obtain rfl := code_of_toNat hcode; exact ⟨rfl, nofun, rfl, by decide⟩
  case h_4 hcode => cases h; obtain rfl := code_of_toNat hcode; exact ⟨rfl, nofun, rfl, bareCodes_status _⟩
  case h_5 hcode => cases h; obtain rfl := code_of_toNat hcode; exact ⟨rfl, nofun, rfl, bareCodes_clear _⟩
  case h_6 => cases h

theorem readBare_of_bareCode (h : (bareCodes k).contains code = true) : readBare k code ≠ none := by
  have hall : ∀ x ∈ bareCodes k, readBare k x ≠ none := by cases k <;> decide
  exact hall code (List.contains_iff_mem.mp h)

/-- A frame whose code has no arguments is its code byte, read as the request it names or as an unknown code. -/
theorem readBare_of_frame {written : List Byte} (hcode : (argumentCodes k).contains code = false) (hw : WellFormed c = true)
    (hframe : frameOf c = some (k, code :: written)) : written = [] ∧ (readBare k code).getD (.unknownCode k code) = c := by
  cases c with
  | startTimebase | abandonDeposit =>
    cases hframe
    exact ⟨rfl, rfl⟩
  | commitDeposit writes =>
    by_cases hn : writes = 4
    · subst hn
      cases hframe
      exact ⟨rfl, rfl⟩
    · exact nomatch (if_neg hn).symm.trans hframe
  | readLinkStatus k | clearLinkStatus k =>
    cases hframe
    cases k <;> exact ⟨rfl, rfl⟩
  | unknownCode j x =>
    cases hframe
    refine ⟨rfl, ?_⟩
    cases hread : readBare k code with
    | none => rfl
    | some c =>
      obtain ⟨-, -, -, hbare⟩ := readBare_frame hread
      have hknown : knownCode k code = true := by rw [knownCode, hbare, Bool.or_true]
      exact absurd hknown (by simpa [WellFormed] using hw)
  | truncatedFrame j x =>
    cases hframe
    exact absurd (show (argumentCodes k).contains code = true from hw) (by rw [hcode]; exact Bool.false_ne_true)
  | lineStatus k | setIrqMode k =>
    cases hframe
    cases k <;> exact absurd hcode (by decide)
  | writeTones start =>
    by_cases hstart : toneStartOk start = true
    · rw [frameOf, if_pos hstart] at hframe
      cases hframe
      exact absurd hcode (by decide)
    · rw [frameOf, if_neg hstart] at hframe
      cases hframe
      exact absurd hcode (by decide)
  | fillCells mask source time control gain writes =>
    by_cases hn : writes = 4
    · subst hn
      cases hframe
      exact absurd hcode (by decide)
    · exact nomatch (if_neg hn).symm.trans hframe
  | configureLine | enableLine | disableLine | setMode | setSupervision | writeProgram | startSignal | stopSignal | loadCid | cidAlert
  | ringStart | ringStop | readEvents | openDeposit | depositData | loadFillPattern | setPlayout | realign | realignWithClear | captureRead
  | readAndClearStatistics =>
    cases hframe
    exact absurd hcode (by decide)
  | _ => cases hframe

/-! ### The obligation -/

theorem readFrame_arguments (hcode : (argumentCodes k).contains code = true) :
    readFrame k (code :: args) = some ((readArguments k code args).getD (.truncatedFrame k code)) := if_pos hcode

theorem readFrame_bare (hcode : (argumentCodes k).contains code = false) :
    readFrame k (code :: args) = some ((readBare k code).getD (.unknownCode k code)) :=
  if_neg (by rw [hcode]; exact Bool.false_ne_true)

/-- The arguments of a frame cut before its last byte are read as none: a command read from them would be read from the whole frame too. -/
theorem readArguments_cut {written : List Byte} (hcode : (argumentCodes k).contains code = true) (hc : Leads c k code written)
    (hframe : frameOf c = some (k, code :: written)) {n : Nat} (hn : n < written.length) : readArguments k code (written.take n) = none := by
  cases hread : readArguments k code (written.take n) with
  | none => rfl
  | some c' =>
    obtain ⟨hw', ht', written', more, hframe', hargs⟩ := readArguments_leads hread
    have hwhole : written = written' ++ (more ++ written.drop n) := by
      rw [← List.append_assoc, ← hargs, List.take_append_drop]
    have hc' := readArguments_of_leads hcode ⟨hw', ht', written', _, hframe', hwhole⟩
    obtain rfl := Option.some.inj ((readArguments_of_leads hcode hc).symm.trans hc')
    obtain rfl : written = written' := by simpa using hframe.symm.trans hframe'
    have hlength := congrArg List.length hargs
    rw [List.length_take, List.length_append] at hlength
    omega

/-- Settles O60. -/
theorem framesReadBackAsWritten : Obligations.FramesReadBackAsWritten := by
  refine ⟨fun c k code args hw hframe => ?_, fun k code args => ?_, rfl, rfl, rfl, rfl, rfl, rfl, rfl, rfl⟩
  · cases hcode : (argumentCodes k).contains code with
    | false =>
      obtain ⟨rfl, hread⟩ := readBare_of_frame hcode hw hframe
      rw [← hread]
      exact ⟨readFrame_bare hcode, fun _ _ => readFrame_bare hcode, fun n hn => absurd hn (Nat.not_lt_zero n)⟩
    | true =>
      by_cases ht : ∀ j x, c ≠ .truncatedFrame j x
      · have hc (more : List Byte) : Leads c k code (args ++ more) := ⟨hw, ht, args, more, hframe, rfl⟩
        have hread (more : List Byte) : readFrame k (code :: (args ++ more)) = some c := by
          rw [readFrame_arguments hcode, readArguments_of_leads hcode (hc more)]
          rfl
        have hwhole := hc []
        rw [List.append_nil] at hwhole
        refine ⟨?_, fun _ => hread, fun n hn => ?_⟩
        · rw [← hread [], List.append_nil]
        · rw [readFrame_arguments hcode, readArguments_cut hcode hwhole hframe hn]
          rfl
      · have hcut : ∃ j x, c = .truncatedFrame j x := by simpa using ht
        obtain ⟨j, x, rfl⟩ := hcut
        cases hframe
        refine ⟨?_, fun h => absurd rfl (h k code), fun n hn => absurd hn (Nat.not_lt_zero n)⟩
        rw [readFrame_arguments hcode, readArguments_nil hcode]
        rfl
  · cases hcode : (argumentCodes k).contains code with
    | false =>
      rw [readFrame_bare hcode]
      cases hread : readBare k code with
      | none =>
        have hbare : (bareCodes k).contains code = false := by
          rw [← Bool.not_eq_true]
          exact fun h => readBare_of_bareCode h hread
        have hknown : WellFormed (.unknownCode k code) = true := by
          rw [WellFormed, knownCode, hcode, hbare]
          rfl
        exact ⟨_, [], rfl, hknown, rfl, fun _ => ⟨args, rfl⟩⟩
      | some c =>
        obtain ⟨hw, -, hframe, -⟩ := readBare_frame hread
        exact ⟨c, [], rfl, hw, hframe, fun _ => ⟨args, rfl⟩⟩
    | true =>
      rw [readFrame_arguments hcode]
      cases hread : readArguments k code args with
      | none => exact ⟨_, [], rfl, hcode, rfl, fun h => absurd rfl (h k code)⟩
      | some c =>
        obtain ⟨hw, -, written, more, hframe, hargs⟩ := readArguments_leads hread
        exact ⟨c, written, rfl, hw, hframe, fun _ => ⟨more, hargs⟩⟩

end Frames

end Sys2Proof.Machine
end

section
/-! PROOF. What is sampled: increments and amplitudes as roundings, the phases of a tone, the bits and phases of an FSK (O17). -/

namespace Sys2Proof.Machine

/-! ### Increments and amplitudes -/

section Amplitudes

theorem increment_toNat {f : Nat} (hf : f ≤ 3999) : (increment f).toNat = (f * 65536 * 2 + 8000) / 16000 := by
  rw [increment, BitVec.toNat_ofNat]
  omega

/-- The powers of two below `2 ^ n`, from the highest. -/
def powersBelow : Nat → List Nat
  | 0 => []
  | n + 1 => 2 ^ n :: powersBelow n

/-- Bit by bit the greatest value reached is found. -/
theorem amplitudeFrom_powers (a n : Nat) : ∀ r : Nat, amplitudeReaches a r = true → amplitudeReaches a (r + 2 ^ n) = false →
    amplitudeReaches a (amplitudeFrom a (powersBelow n) r) = true ∧
      amplitudeReaches a (amplitudeFrom a (powersBelow n) r + 1) = false := by
  induction n with
  | zero =>
    intro r hr hn
    rw [powersBelow, amplitudeFrom]
    rw [Nat.pow_zero] at hn
    exact ⟨hr, hn⟩
  | succ n ih =>
    intro r hr hn
    rw [powersBelow, amplitudeFrom]
    cases hreach : amplitudeReaches a (r + 2 ^ n) with
    | true =>
      rw [if_pos rfl]
      refine ih _ hreach ?_
      rwa [Nat.add_assoc, ← Nat.two_mul, ← Nat.pow_succ']
    | false =>
      rw [if_neg Bool.false_ne_true]
      exact ih r hr hreach

theorem amplitudeReaches_iff {a r : Nat} : amplitudeReaches a r = true ↔ (2 * r - 1) ^ 40 * 10 ^ a ≤ 32768 ^ 40 := by
  rw [amplitudeReaches, decide_eq_true_iff]

theorem not_amplitudeReaches_iff {a r : Nat} : amplitudeReaches a r = false ↔ 32768 ^ 40 < (2 * r - 1) ^ 40 * 10 ^ a := by
  rw [amplitudeReaches, decide_eq_false_iff_not, Nat.not_le]

theorem ampOf_reaches (a : Nat) : amplitudeReaches a (ampOf a) = true ∧ amplitudeReaches a (ampOf a + 1) = false := by
  have hzero : amplitudeReaches a 0 = true := by
    rw [amplitudeReaches_iff, Nat.mul_zero, Nat.zero_sub, Nat.zero_pow (by decide), Nat.zero_mul]
    exact Nat.zero_le _
  have htop : amplitudeReaches a (0 + 2 ^ 15) = false := by
    have hbase : 32768 ^ 40 < (2 * (0 + 2 ^ 15) - 1) ^ 40 := Nat.pow_lt_pow_left (by decide) (by decide)
    rw [not_amplitudeReaches_iff]
    exact Nat.lt_of_lt_of_le hbase (Nat.le_mul_of_pos_right _ (Nat.pow_pos (by decide)))
  have hbits : [16384, 8192, 4096, 2048, 1024, 512, 256, 128, 64, 32, 16, 8, 4, 2, 1] = powersBelow 15 := by decide
  rw [ampOf, hbits]
  exact amplitudeFrom_powers a 15 0 hzero htop

/-- The amplitude is the formula's value, rounded. -/
theorem ampOf_rounds {a : Nat} (ha : a ≤ 127) :
    1 ≤ ampOf a ∧ (2 * ampOf a - 1) ^ 40 * 10 ^ a ≤ 32768 ^ 40 ∧ 32768 ^ 40 < (2 * ampOf a + 1) ^ 40 * 10 ^ a := by
  obtain ⟨hreach, hbeyond⟩ := ampOf_reaches a
  rw [amplitudeReaches_iff] at hreach
  rw [not_amplitudeReaches_iff, Nat.mul_add, Nat.mul_one, Nat.add_sub_assoc (by decide)] at hbeyond
  refine ⟨Nat.pos_of_ne_zero fun hzero => ?_, hreach, hbeyond⟩
  have hone : 10 ^ a ≤ 10 ^ 127 := Nat.pow_le_pow_right (by decide) ha
  have htop : 10 ^ 127 ≤ 32768 ^ 40 := by norm_num
  rw [hzero, Nat.mul_zero, Nat.zero_add, Nat.one_pow, Nat.one_mul] at hbeyond
  exact absurd (Nat.lt_of_lt_of_le hbeyond (hone.trans htop)) (Nat.lt_irrefl _)

end Amplitudes

/-! ### Tones -/

section Tones

theorem Tone.after_eq (n : Nat) : ∀ t : Tone, t.after n =
    { t with phaseA := t.phaseA + BitVec.ofNat 16 n * t.incA, phaseB := t.phaseB + BitVec.ofNat 16 n * t.incB } := by
  induction n with
  | zero =>
    intro t
    simp [Tone.after]
  | succ n ih =>
    intro t
    have hphase (p i : Word16) : p + i + BitVec.ofNat 16 n * i = p + BitVec.ofNat 16 (n + 1) * i := by
      rw [BitVec.ofNat_add, BitVec.add_mul, BitVec.one_mul, BitVec.add_assoc, BitVec.add_comm i]
    rw [Tone.after, ih, Tone.advance]
    dsimp only
    rw [hphase, hphase]

theorem Tone.samples_getD (n : Nat) : ∀ (t : Tone) (k : Nat), k < n → (t.samples n).getD k 0 = (t.after k).sample := by
  induction n with
  | zero => exact fun _ k hk => absurd hk (Nat.not_lt_zero k)
  | succ n ih =>
    intro t k hk
    cases k with
    | zero => rfl
    | succ k => exact ih t.advance k (Nat.lt_of_succ_lt_succ hk)

end Tones

/-! ### FSK -/

section Fsk

variable {onHook : Bool} {m : CidMessage} {f : Fsk}

theorem Fsk.after_succ (n : Nat) : ∀ f : Fsk, f.after onHook m (n + 1) = (f.after onHook m n).advance onHook m := by
  induction n with
  | zero => exact fun _ => rfl
  | succ n ih => exact fun f => ih (f.advance onHook m)

theorem Fsk.samples_getD (n : Nat) : ∀ (f : Fsk) (k : Nat) (x : Sample), k < n →
    (f.samples onHook m n).getD k x = (f.after onHook m k).sample onHook m := by
  induction n with
  | zero => exact fun _ k _ hk => absurd hk (Nat.not_lt_zero k)
  | succ n ih =>
    intro f k x hk
    cases k with
    | zero => rfl
    | succ k => exact ih (f.advance onHook m) k x (Nat.lt_of_succ_lt_succ hk)

theorem Fsk.advance_amplitude : (f.advance onHook m).amplitude = f.amplitude := by
  unfold Fsk.advance
  split
  · rfl
  · dsimp only
    split <;> rfl

theorem Fsk.advance_phase (h : f.done onHook m = false) :
    (f.advance onHook m).phase = f.phase + (if fskBit onHook m f.bit then 9830 else 18022) := by
  unfold Fsk.advance
  rw [h, if_neg Bool.false_ne_true]
  dsimp only
  split <;> rfl

/-- While bits are left, sample `n` belongs to bit `3n/20`. -/
theorem Fsk.after_start (a n : Nat) (h : 3 * n < 20 * fskBits onHook m) :
    ((Fsk.start a).after onHook m n).bit = 3 * n / 20 ∧ ((Fsk.start a).after onHook m n).accumulator = 3 * n % 20 ∧
      ((Fsk.start a).after onHook m n).done onHook m = false := by
  have hdone {f : Fsk} (hf : f.bit = 3 * n / 20) : f.done onHook m = false := by
    rw [Fsk.done, hf]
    exact decide_eq_false (by omega)
  induction n with
  | zero => exact ⟨rfl, rfl, hdone rfl⟩
  | succ n ih =>
    obtain ⟨hbit, haccumulator, hnot⟩ := ih (by omega) fun hf => by
      rw [Fsk.done, hf]
      exact decide_eq_false (by omega)
    obtain ⟨hlt, hsum⟩ := Fsk.advance_bits hnot (by omega)
    rw [← Fsk.after_succ] at hlt hsum
    have hnext : ((Fsk.start a).after onHook m (n + 1)).bit = 3 * (n + 1) / 20 := by omega
    exact ⟨hnext, by omega, hdone hnext⟩

theorem Fsk.after_amplitude (a n : Nat) : ((Fsk.start a).after onHook m n).amplitude = ampOf a := by
  induction n with
  | zero => rfl
  | succ n ih => rw [Fsk.after_succ, Fsk.advance_amplitude, ih]

/-- With the samples of its bits gone the FSK is done. -/
theorem Fsk.after_last (a : Nat) {n : Nat} (h : 20 * fskBits onHook m ≤ 3 * n) :
    ((Fsk.start a).after onHook m n).done onHook m = true := by
  obtain hdone | ⟨hlt, hsum⟩ := Fsk.after_bits (onHook := onHook) (msg := m) n (f := Fsk.start a) (by show 0 < 20; decide)
  · exact hdone
  · have hzero : 20 * (Fsk.start a).bit + (Fsk.start a).accumulator = 0 := rfl
    exact decide_eq_true (by omega)

theorem fskBits_eq (onHook : Bool) (m : CidMessage) : fskBits onHook m = (if onHook then 480 else 80) + 10 * (m.payload.length + 3) := by
  have hlen : m.bytes.length = m.payload.length + 3 := by simp [CidMessage.bytes]
  rw [fskBits, hlen]
  rfl

/-- A bit after the preamble, by its place in its byte's ten. -/
theorem fskBit_frame (onHook : Bool) (m : CidMessage) (j k : Nat) (hk : k < 10) :
    fskBit onHook m ((if onHook then 480 else 80) + 10 * j + k) =
      if k = 0 then false else if k = 9 then true else (m.bytes.getD j 0).getLsbD (k - 1) := by
  have hpre : preambleBits onHook = if onHook then 480 else 80 := rfl
  have hstart : preambleBits onHook = 480 ∧ onHook = true ∨ preambleBits onHook = 80 ∧ onHook = false := by
    cases onHook
    · exact .inr ⟨rfl, rfl⟩
    · exact .inl ⟨rfl, rfl⟩
  rw [← hpre]
  have hsub : preambleBits onHook + 10 * j + k - preambleBits onHook = 10 * j + k := by omega
  have hplace : (10 * j + k) % 10 = k := by omega
  have hbyte : (10 * j + k) / 10 = j := by omega
  have halternating : ¬(onHook && decide (preambleBits onHook + 10 * j + k < 300)) = true := by
    rcases hstart with ⟨h, rfl⟩ | ⟨_, rfl⟩
    · rw [Bool.true_and, decide_eq_true_iff]
      omega
    · exact Bool.false_ne_true
  unfold fskBit
  rw [if_neg halternating, if_neg (by omega), hsub]
  dsimp only
  rw [hplace, hbyte]

end Fsk

/-! ### The obligation -/

/-- Settles O17. -/
theorem tonesAndFskAreSampled : Obligations.TonesAndFskAreSampled := by
  refine ⟨fun f hf => ?_, fun a ha => ampOf_rounds ha, fun _ => rfl, fun t n k hk => ⟨Tone.samples_length n t, ?_, Tone.after_eq n t⟩,
    fun onHook m a n h => ?_, fun onHook m a n k h hk => ?_, fun m => ⟨fskBits_eq true m, fskBits_eq false m, ?_, ?_, ?_, ?_⟩⟩
  · rw [increment_toNat hf]
    omega
  · rw [Tone.samples_getD n t k hk, Tone.after_eq]
    rfl
  · obtain ⟨hbit, haccumulator, hdone⟩ := Fsk.after_start a n h
    refine ⟨Fsk.after_amplitude a n, hbit, haccumulator, rfl, hdone, ?_, fun k hk => ⟨Fsk.samples_length onHook m k _, ?_⟩⟩
    · rw [Fsk.after_succ, Fsk.advance_phase hdone, hbit]
    · rw [Fsk.samples_getD k _ n 0 hk, Fsk.sample, hdone, if_neg Bool.false_ne_true, Fsk.after_amplitude]
  · have hdone := Fsk.after_last a h
    refine ⟨hdone, ?_⟩
    rw [Fsk.samples_getD k _ n 1 hk, Fsk.sample, hdone, if_pos rfl]
  · intro i hi
    exact if_pos (by rw [decide_eq_true hi]; rfl)
  · intro i hi hpre
    exact (if_neg (by rw [decide_eq_false (by omega)]; exact Bool.false_ne_true)).trans (if_pos hpre)
  · intro i hpre
    exact if_pos hpre
  · intro onHook j b hb
    have hbyte : m.bytes.getD j 0 = b := by
      rw [List.getD_eq_getElem?_getD]
      exact congrArg (Option.getD · 0) hb
    refine ⟨fskBit_frame onHook m j 0 (by decide), fun i hi => ?_, fskBit_frame onHook m j 9 (by decide)⟩
    rw [Nat.add_assoc, fskBit_frame onHook m j (1 + i) (by omega), if_neg (by omega), if_neg (by omega), hbyte, Nat.add_sub_cancel_left]

end Sys2Proof.Machine
end

section
/-! PROOF. The fixed-point sine: the error of its series, the series of the sine, and the rounding of a term (O18). -/

namespace Sys2Proof.Machine

/-! ### The series in real numbers -/

section Series

/-- What the alternating series makes of its `k`-th term, as a factor of it: `n` terms follow, and `x` is the squared angle. -/
noncomputable def seriesFactor : Nat → Nat → ℝ → ℝ
  | 0, _, _ => 1
  | n + 1, k, x => 1 - x / ((2 * k + 2) * (2 * k + 3)) * seriesFactor n (k + 1) x

theorem divisor_ge (k : Nat) : (6 : ℝ) ≤ (2 * k + 2) * (2 * k + 3) := by
  have hk : (0 : ℝ) ≤ k := Nat.cast_nonneg k
  nlinarith

theorem ratio_le {x b : ℝ} (hx : x ≤ 6 * b) (hb : 0 ≤ b) (k : Nat) : x / ((2 * k + 2) * (2 * k + 3)) ≤ b := by
  have hd := divisor_ge k
  rw [div_le_iff₀ (by linarith)]
  nlinarith

theorem seriesFactor_mem {x : ℝ} (h0 : 0 ≤ x) (h6 : x ≤ 6) (n : Nat) : ∀ k, 0 ≤ seriesFactor n k x ∧ seriesFactor n k x ≤ 1 := by
  induction n with
  | zero => exact fun k => ⟨zero_le_one, le_refl _⟩
  | succ n ih =>
    intro k
    obtain ⟨hlow, hhigh⟩ := ih (k + 1)
    have hratio : 0 ≤ x / ((2 * k + 2) * (2 * k + 3)) := div_nonneg h0 (by linarith [divisor_ge k])
    have hone := ratio_le (x := x) (b := 1) (by linarith) zero_le_one k
    rw [seriesFactor]
    constructor
    · linarith [mul_le_one₀ hone hlow hhigh]
    · linarith [mul_nonneg hratio hlow]

/-- The factor hardly depends on the squared angle. -/
theorem seriesFactor_sub {x y : ℝ} (hx0 : 0 ≤ x) (hx : x ≤ 3) (hy0 : 0 ≤ y) (hy : y ≤ 3) (n : Nat) :
    ∀ k, |seriesFactor n k x - seriesFactor n k y| ≤ |x - y| := by
  induction n with
  | zero => exact fun k => by rw [seriesFactor, seriesFactor, sub_self, abs_zero]; exact abs_nonneg _
  | succ n ih =>
    intro k
    have hd := divisor_ge k
    obtain ⟨hlow, hhigh⟩ := seriesFactor_mem hx0 (by linarith) n (k + 1)
    have hratio : 0 ≤ y / ((2 * k + 2) * (2 * k + 3)) := div_nonneg hy0 (by linarith)
    have hhalf := ratio_le (x := y) (b := 1 / 2) (by linarith) (by norm_num) k
    have hsixth : |x - y| / ((2 * k + 2) * (2 * k + 3)) ≤ |x - y| / 6 := div_le_div_of_nonneg_left (abs_nonneg _) (by norm_num) hd
    have hsplit : seriesFactor (n + 1) k x - seriesFactor (n + 1) k y =
        -((x - y) / ((2 * k + 2) * (2 * k + 3)) * seriesFactor n (k + 1) x) -
          y / ((2 * k + 2) * (2 * k + 3)) * (seriesFactor n (k + 1) x - seriesFactor n (k + 1) y) := by
      rw [seriesFactor, seriesFactor]
      ring
    have hfirst : |(x - y) / ((2 * k + 2) * (2 * k + 3)) * seriesFactor n (k + 1) x| ≤ |x - y| / 6 := by
      rw [abs_mul, abs_div, abs_of_nonneg hlow, abs_of_nonneg (le_trans (by norm_num) hd)]
      exact (mul_le_of_le_one_right (div_nonneg (abs_nonneg _) (by linarith)) hhigh).trans hsixth
    have hsecond : |y / ((2 * k + 2) * (2 * k + 3)) * (seriesFactor n (k + 1) x - seriesFactor n (k + 1) y)| ≤ 1 / 2 * |x - y| := by
      rw [abs_mul, abs_of_nonneg hratio]
      exact mul_le_mul hhalf (ih (k + 1)) (abs_nonneg _) (by norm_num)
    rw [hsplit]
    have hsum := abs_sub (-((x - y) / ((2 * k + 2) * (2 * k + 3)) * seriesFactor n (k + 1) x))
      (y / ((2 * k + 2) * (2 * k + 3)) * (seriesFactor n (k + 1) x - seriesFactor n (k + 1) y))
    rw [abs_neg] at hsum
    linarith [abs_nonneg (x - y)]

/-- The terms of the sine. -/
noncomputable def sineSummand (a : ℝ) (n : Nat) : ℝ := a ^ (2 * n + 1) / (Nat.factorial (2 * n + 1) : ℝ)

theorem sineSummand_succ (a : ℝ) (k : Nat) :
    sineSummand a (k + 1) = sineSummand a k * (a ^ 2 / ((2 * k + 2) * (2 * k + 3))) := by
  have hfact : (Nat.factorial (2 * (k + 1) + 1) : ℝ) = (2 * k + 3) * ((2 * k + 2) * Nat.factorial (2 * k + 1)) := by
    rw [show 2 * (k + 1) + 1 = (2 * k + 1 + 1) + 1 from rfl, Nat.factorial_succ, Nat.factorial_succ]
    push_cast
    ring
  have hpos : (Nat.factorial (2 * k + 1) : ℝ) ≠ 0 := Nat.cast_ne_zero.mpr (Nat.factorial_ne_zero _)
  have hk : (0 : ℝ) ≤ k := Nat.cast_nonneg k
  rw [sineSummand, sineSummand, hfact]
  field_simp
  ring

/-- The series from its `k`-th term on is an alternating sum. -/
theorem seriesFactor_sum (a : ℝ) (n : Nat) : ∀ k, sineSummand a k * seriesFactor n k (a ^ 2) =
    ∑ i ∈ Finset.range (n + 1), (-1) ^ i * sineSummand a (k + i) := by
  induction n with
  | zero => intro k; simp [seriesFactor]
  | succ n ih =>
    intro k
    rw [Finset.sum_range_succ', seriesFactor, mul_sub, ← mul_assoc, ← sineSummand_succ, ih (k + 1), mul_one, pow_zero, one_mul,
      Nat.add_zero, sub_eq_neg_add, ← Finset.sum_neg_distrib]
    refine congrArg (· + _) (Finset.sum_congr rfl fun i _ => ?_)
    rw [pow_succ, Nat.add_right_comm, Nat.add_assoc k i 1]
    ring

end Series

/-! ### The sine and its series -/

section Sine

open Real

theorem sineSummand_nonneg {a : ℝ} (h0 : 0 ≤ a) (n : Nat) : 0 ≤ sineSummand a n :=
  div_nonneg (pow_nonneg h0 _) (Nat.cast_nonneg _)

theorem sineSummand_antitone {a : ℝ} (h0 : 0 ≤ a) (h2 : a ≤ 2) : Antitone (sineSummand a) := antitone_nat_of_succ_le fun n => by
  have hratio := ratio_le (x := a ^ 2) (b := 1) (by nlinarith) zero_le_one n
  rw [sineSummand_succ]
  exact mul_le_of_le_one_right (sineSummand_nonneg h0 n) hratio

theorem hasSum_sineSummand (a : ℝ) : HasSum (fun n => (-1) ^ n * sineSummand a n) (sin a) := by
  have h := Real.hasSum_sin a
  simp only [mul_div_assoc] at h
  exact h

/-- The first thirteen terms are the sine but for the next. -/
theorem sin_series_error {a : ℝ} (h0 : 0 ≤ a) (h2 : a ≤ 2) : |sin a - a * seriesFactor 12 0 (a ^ 2)| ≤ 1 / 10 ^ 13 := by
  have hsum := hasSum_sineSummand a
  have hsummable : Summable (sineSummand a) := hsum.summable.abs.congr fun n => by
    rw [abs_mul, abs_pow, abs_neg, abs_one, one_pow, one_mul, abs_of_nonneg (sineSummand_nonneg h0 n)]
  have hbound := alternating_series_error_bound (sineSummand a) (sineSummand_antitone h0 h2) hsummable 13
  have hfirst : sineSummand a 0 = a := by simp [sineSummand]
  have hseries := seriesFactor_sum a 12 0
  simp only [Nat.zero_add] at hseries
  have hnext : sineSummand a 13 ≤ 1 / 10 ^ 13 := by
    have hpow : a ^ 27 ≤ 2 ^ 27 := pow_le_pow_left₀ h0 h2 27
    have hfact : (0 : ℝ) < (Nat.factorial 27 : ℝ) := Nat.cast_pos.mpr (Nat.factorial_pos _)
    refine (div_le_div_of_nonneg_right hpow hfact.le).trans ?_
    rw [div_le_div_iff₀ hfact (by positivity)]
    norm_num [Nat.factorial]
  rw [hsum.tsum_eq, ← hseries, hfirst] at hbound
  exact hbound.trans hnext

end Sine

/-! ### The fixed-point series -/

section FixedPoint

/-- A natural quotient is the real one less a part of 1. -/
theorem natDiv_error (a : Nat) {b : Nat} (hb : 0 < b) : 0 ≤ (a : ℝ) / b - (a / b : Nat) ∧ (a : ℝ) / b - (a / b : Nat) ≤ 1 := by
  have hb' : (0 : ℝ) < b := Nat.cast_pos.mpr hb
  have hle : ((a / b : Nat) : ℝ) ≤ (a : ℝ) / b := Nat.cast_div_le
  have hlt : (a : ℝ) < ((a / b : Nat) + 1) * b := by
    rw [mul_comm]
    exact_mod_cast Nat.lt_mul_div_succ a hb
  have hdiv : (a : ℝ) / b < (a / b : Nat) + 1 := (div_lt_iff₀ hb').mpr hlt
  constructor <;> linarith

theorem sineSeries_le (n : Nat) (k t x2 : Nat) : sineSeries n k t x2 ≤ t := by
  cases n with
  | zero => exact Nat.le_refl t
  | succ n => exact Nat.sub_le _ _

/-- Each division of the series loses less than one place. -/
theorem sineSeries_error {x2 : Nat} (hx : x2 ≤ 6 * sineScale) (n : Nat) : ∀ k t : Nat,
    |(sineSeries n k t x2 : ℝ) - t * seriesFactor n k (x2 / sineScale)| ≤ n := by
  have hscale : (0 : ℝ) < sineScale := by norm_num [sineScale]
  have hx0 : (0 : ℝ) ≤ x2 / sineScale := div_nonneg (Nat.cast_nonneg _) hscale.le
  have hx6 : (x2 : ℝ) / sineScale ≤ 6 := (div_le_iff₀ hscale).mpr (by exact_mod_cast hx)
  induction n with
  | zero => intro k t; simp [sineSeries, seriesFactor]
  | succ n ih =>
    intro k t
    have hnext : t * x2 / sineScale / ((2 * k + 2) * (2 * k + 3)) = t * x2 / (sineScale * ((2 * k + 2) * (2 * k + 3))) :=
      Nat.div_div_eq_div_mul _ _ _
    have hd : 0 < sineScale * ((2 * k + 2) * (2 * k + 3)) := by
      have : 0 < sineScale := by decide
      positivity
    obtain ⟨hlow, hhigh⟩ := natDiv_error (t * x2) hd
    have hreal : ((t * x2 : Nat) : ℝ) / (sineScale * ((2 * k + 2) * (2 * k + 3)) : Nat) =
        t * (x2 / sineScale / ((2 * k + 2) * (2 * k + 3))) := by
      push_cast
      field_simp
    rw [hreal] at hlow hhigh
    rw [sineSeries, hnext]
    generalize t * x2 / (sineScale * ((2 * k + 2) * (2 * k + 3))) = t' at hlow hhigh ⊢
    have hratio := ratio_le (x := x2 / sineScale) (b := 1) (by linarith) zero_le_one k
    have ht' : t' ≤ t := by
      have : (t' : ℝ) ≤ t := by nlinarith [Nat.cast_nonneg (α := ℝ) t]
      exact_mod_cast this
    have hrest := ih (k + 1) t'
    obtain ⟨hc0, hc1⟩ := seriesFactor_mem hx0 hx6 n (k + 1)
    rw [Nat.cast_sub ((sineSeries_le n (k + 1) t' x2).trans ht'), seriesFactor]
    have hsplit : (t : ℝ) - sineSeries n (k + 1) t' x2 -
        t * (1 - x2 / sineScale / ((2 * k + 2) * (2 * k + 3)) * seriesFactor n (k + 1) (x2 / sineScale)) =
        -(sineSeries n (k + 1) t' x2 - t' * seriesFactor n (k + 1) (x2 / sineScale)) +
          (t * (x2 / sineScale / ((2 * k + 2) * (2 * k + 3))) - t') * seriesFactor n (k + 1) (x2 / sineScale) := by ring
    have hloss : |(t * (x2 / sineScale / ((2 * k + 2) * (2 * k + 3))) - t') * seriesFactor n (k + 1) (x2 / sineScale)| ≤ 1 := by
      rw [abs_mul, abs_of_nonneg hlow, abs_of_nonneg hc0]
      exact mul_le_one₀ hhigh hc0 hc1
    rw [hsplit]
    refine (abs_add_le _ _).trans ?_
    rw [abs_neg]
    push_cast
    linarith

end FixedPoint

/-! ### A quarter turn -/

section Quarter

open Real

theorem piScaled_error : |(piScaled : ℝ) / sineScale - π| ≤ 1 / 10 ^ 18 := by
  have hlow := pi_gt_d20
  have hhigh := pi_lt_d20
  have hvalue : |(piScaled : ℝ) / sineScale - 3.14159265358979323846| ≤ 1 / 10 ^ 19 := by
    rw [abs_le]
    constructor <;> norm_num [piScaled, sineScale]
  rw [abs_le] at hvalue ⊢
  obtain ⟨hbelow, habove⟩ := hvalue
  constructor <;> norm_num at * <;> linarith

/-- The fixed-point series of an angle of a quarter turn at most. -/
theorem sineSeries_sin {A : Nat} (hA : 10 * A ≤ 16 * sineScale) :
    |(sineSeries 12 0 A (A * A / sineScale) : ℝ) / sineScale - sin ((A : ℝ) / sineScale)| ≤ 1 / 10 ^ 13 + 14 / 10 ^ 18 := by
  have hscale : (0 : ℝ) < sineScale := by norm_num [sineScale]
  have hplace : (1 : ℝ) / sineScale ≤ 1 / 10 ^ 18 := by norm_num [sineScale]
  have ha0 : (0 : ℝ) ≤ A / sineScale := div_nonneg (Nat.cast_nonneg _) hscale.le
  have ha : (A : ℝ) / sineScale ≤ 8 / 5 := by
    have : (10 : ℝ) * A ≤ 16 * sineScale := by exact_mod_cast hA
    rw [div_le_iff₀ hscale]
    linarith
  obtain ⟨hx0, hx1⟩ := natDiv_error (A * A) (b := sineScale) (by decide)
  have hsquare : ((A * A : Nat) : ℝ) / sineScale / sineScale = (A / sineScale) ^ 2 := by
    push_cast
    field_simp
  have hlost (d : ℝ) (h0 : 0 ≤ d) (h1 : d ≤ 1) : 0 ≤ d / sineScale ∧ d / sineScale ≤ 1 / 10 ^ 18 :=
    ⟨div_nonneg h0 hscale.le, (div_le_div_of_nonneg_right h1 hscale.le).trans hplace⟩
  obtain ⟨hd0, hd1⟩ := hlost _ hx0 hx1
  rw [sub_div, hsquare] at hd0 hd1
  have hx : A * A / sineScale ≤ 6 * sineScale := by
    have hreal : ((A * A / sineScale : Nat) : ℝ) / sineScale ≤ 6 := by nlinarith
    rw [div_le_iff₀ hscale] at hreal
    exact_mod_cast hreal
  have hseries := sineSeries_error hx 12 0 A
  have hX0 : (0 : ℝ) ≤ ((A * A / sineScale : Nat) : ℝ) / sineScale := div_nonneg (Nat.cast_nonneg _) hscale.le
  generalize A * A / sineScale = x2 at hseries hd0 hd1 hX0 ⊢
  generalize sineSeries 12 0 A x2 = S at hseries ⊢
  have hsin := sin_series_error ha0 (by linarith)
  have hfactor := seriesFactor_sub (x := x2 / sineScale) (y := (A / sineScale) ^ 2) hX0 (by nlinarith) (sq_nonneg _) (by nlinarith) 12 0
  have hclose : |(x2 : ℝ) / sineScale - (A / sineScale) ^ 2| ≤ 1 / 10 ^ 18 := by rw [abs_le]; constructor <;> linarith
  have hseries' : |(S : ℝ) / sineScale - A / sineScale * seriesFactor 12 0 (x2 / sineScale)| ≤ 12 / 10 ^ 18 := by
    have hdiv : (S : ℝ) / sineScale - A / sineScale * seriesFactor 12 0 (x2 / sineScale) =
        (S - A * seriesFactor 12 0 (x2 / sineScale)) / sineScale := by ring
    rw [hdiv, abs_div, abs_of_pos hscale, div_le_iff₀ hscale]
    have : (1 : ℝ) ≤ 1 / 10 ^ 18 * sineScale := (div_le_iff₀ hscale).mp hplace
    push_cast at hseries
    linarith
  have hscaled : |(A : ℝ) / sineScale * (seriesFactor 12 0 (x2 / sineScale) - seriesFactor 12 0 ((A / sineScale) ^ 2))| ≤ 2 / 10 ^ 18 := by
    rw [abs_mul, abs_of_nonneg ha0]
    have := mul_le_mul ha (hfactor.trans hclose) (abs_nonneg _) (by norm_num)
    linarith
  rw [abs_le] at hseries' hscaled hsin ⊢
  constructor <;> linarith

/-- The fixed-point sine of a quarter turn. -/
theorem quarterSine_error {q : Nat} (hq : q ≤ 16384) :
    |(quarterSine q : ℝ) / sineScale - sin (π * q / 32768)| ≤ 1 / 10 ^ 12 := by
  have hscale : (0 : ℝ) < sineScale := by norm_num [sineScale]
  have hplace : (1 : ℝ) / sineScale ≤ 1 / 10 ^ 18 := by norm_num [sineScale]
  have hA : 10 * (q * piScaled / 2 ^ 15) ≤ 16 * sineScale := by
    have hturn : q * piScaled ≤ 16384 * piScaled := Nat.mul_le_mul_right _ hq
    have hquarter : 10 * (16384 * piScaled / 2 ^ 15) ≤ 16 * sineScale := by decide
    exact (Nat.mul_le_mul_left 10 (Nat.div_le_div_right hturn)).trans hquarter
  obtain ⟨hangle0, hangle1⟩ := natDiv_error (q * piScaled) (b := 2 ^ 15) (by decide)
  have hsine := sineSeries_sin hA
  change |((sineSeries 12 0 (q * piScaled / 2 ^ 15) _ : Nat) : ℝ) / sineScale - _| ≤ _
  generalize q * piScaled / 2 ^ 15 = A at hangle0 hangle1 hsine ⊢
  have hangle : |(A : ℝ) / sineScale - π * q / 32768| ≤ 2 / 10 ^ 18 := by
    have hq' : (q : ℝ) / 32768 ≤ 1 := by
      have : (q : ℝ) ≤ 16384 := by exact_mod_cast hq
      linarith
    have hpi : |(q : ℝ) / 32768 * (piScaled / sineScale - π)| ≤ 1 / 10 ^ 18 := by
      rw [abs_mul, abs_of_nonneg (by positivity)]
      exact (mul_le_of_le_one_left (abs_nonneg _) hq').trans piScaled_error
    have hlost0 : 0 ≤ (((q * piScaled : Nat) : ℝ) / (2 ^ 15 : Nat) - A) / sineScale := div_nonneg hangle0 hscale.le
    have hlost1 := (div_le_div_of_nonneg_right hangle1 hscale.le).trans hplace
    have hsplit : (A : ℝ) / sineScale - π * q / 32768 =
        (q : ℝ) / 32768 * (piScaled / sineScale - π) - (((q * piScaled : Nat) : ℝ) / (2 ^ 15 : Nat) - A) / sineScale := by
      push_cast
      field_simp
      ring
    rw [abs_le] at hpi ⊢
    rw [hsplit]
    constructor <;> linarith
  have hlipschitz := (abs_sin_sub_sin_le ((A : ℝ) / sineScale) (π * q / 32768)).trans hangle
  rw [abs_le] at hsine hlipschitz ⊢
  constructor <;> norm_num at * <;> linarith

/-- A term of a quarter turn is rounded. -/
theorem quarterTerm_error {amp q : Nat} (hamp : amp ≤ 16384) (hq : q ≤ 16384) :
    |(quarterTerm amp q : ℝ) - amp * sin (π * q / 32768)| ≤ 1 / 2 + 1 / 1000000 := by
  have hscale : (0 : ℝ) < sineScale := by norm_num [sineScale]
  obtain ⟨hlow, hhigh⟩ := natDiv_error (2 * amp * quarterSine q + sineScale) (b := 2 * sineScale) (by decide)
  have hvalue : ((2 * amp * quarterSine q + sineScale : Nat) : ℝ) / (2 * sineScale : Nat) = amp * (quarterSine q / sineScale) + 1 / 2 := by
    push_cast
    field_simp
  rw [hvalue] at hlow hhigh
  change |(((2 * amp * quarterSine q + sineScale) / (2 * sineScale) : Nat) : ℝ) - _| ≤ _
  generalize (2 * amp * quarterSine q + sineScale) / (2 * sineScale) = r at hlow hhigh ⊢
  have hamp' : (amp : ℝ) ≤ 16384 := by exact_mod_cast hamp
  have hsine : |(amp : ℝ) * (quarterSine q / sineScale - sin (π * q / 32768))| ≤ 1 / 1000000 := by
    rw [abs_mul, abs_of_nonneg (Nat.cast_nonneg _)]
    refine (mul_le_mul hamp' (quarterSine_error hq) (abs_nonneg _) (by norm_num)).trans ?_
    norm_num
  rw [abs_le] at hsine ⊢
  constructor <;> linarith

end Quarter

/-! ### The obligation -/

section Settled

open Real

/-- A term below the axis is rounded as the one above it. -/
theorem quarterTerm_neg_error {amp q : Nat} (hamp : amp ≤ 16384) (hq : q ≤ 16384) :
    |-(quarterTerm amp q : ℝ) - amp * -sin (π * q / 32768)| ≤ 1 / 2 + 1 / 1000000 := by
  have h := quarterTerm_error hamp hq
  rwa [mul_neg, ← neg_sub', abs_neg]

/-- Settles O18: each quarter of the turn is the first one, mirrored or below the axis. -/
theorem sineTermsRoundTheSine : Obligations.SineTermsRoundTheSine := by
  intro amp phase hamp
  have hp : phase.toNat < 65536 := phase.isLt
  unfold sineTerm
  dsimp only
  generalize phase.toNat = p at hp ⊢
  split
  · have hangle : 2 * π * (p : ℝ) / 65536 = π * p / 32768 := by ring
    rw [hangle, Int.cast_natCast]
    exact quarterTerm_error hamp (by omega)
  split
  · have hangle : 2 * π * (p : ℝ) / 65536 = π - π * (32768 - p : Nat) / 32768 := by
      rw [Nat.cast_sub (by omega)]
      push_cast
      ring
    rw [hangle, sin_pi_sub, Int.cast_natCast]
    exact quarterTerm_error hamp (by omega)
  split
  · have hangle : 2 * π * (p : ℝ) / 65536 = π * (p - 32768 : Nat) / 32768 + π := by
      rw [Nat.cast_sub (by omega)]
      push_cast
      ring
    rw [hangle, sin_add_pi, Int.cast_neg, Int.cast_natCast]
    exact quarterTerm_neg_error hamp (by omega)
  · have hangle : 2 * π * (p : ℝ) / 65536 = 2 * π - π * (65536 - p : Nat) / 32768 := by
      rw [Nat.cast_sub (by omega)]
      push_cast
      ring
    rw [hangle, sin_two_pi_sub, Int.cast_neg, Int.cast_natCast]
    exact quarterTerm_neg_error hamp (by omega)

end Settled

end Sys2Proof.Machine
end
